-- ==== Sys2Proof/Word.lean ====
section
/-! DEFINITION. The block's word types (00_scope.md R7, R9) and the four planes in the order Blue, Green, Red,
Intensity. -/

namespace Sys2Proof

/-- One framebuffer byte: eight horizontal pixels of one plane (20_memory.md R52). -/
abbrev Byte := BitVec 8

/-- A brush word, a ROM word or a host read (20_memory.md R53, R54). -/
abbrev Word := BitVec 32

/-- A command word (30_encoding.md R80). -/
abbrev CommandWord := BitVec 64

/-- An 8-bit channel (30_encoding.md R82). -/
abbrev Channel := BitVec 8

/-- A 16-bit pixel coordinate (30_encoding.md R83). -/
abbrev Coord := BitVec 16

/-- A 4-bit ROM level (30_encoding.md R84). -/
abbrev Level := BitVec 4

/-- A 4-bit pixel value or palette index, bit `p` for plane `p` (40_tables.md R123, 42_pixel_compositor.md R162). -/
abbrev Pixel := BitVec 4

/-- The dither-pattern ROM: 16 words addressed by a level (40_tables.md R110). -/
abbrev Rom := Vector Word 16

/-- The four planes (00_scope.md R7, R12). -/
inductive Plane where
  | blue
  | green
  | red
  | intensity
deriving DecidableEq, Repr

/-- The plane's number: "Blue=0, Green=1, Red=2, Intensity=3" (00_scope.md R7). -/
def Plane.index : Plane → Nat
  | .blue => 0
  | .green => 1
  | .red => 2
  | .intensity => 3

/-- One thing for each plane: the brush (`BRUSH0..3`, 10_state.md R24), the framebuffer `FB[0..3]` (20_memory.md R52),
or the four bytes at one offset. -/
structure Planes (α : Type) where
  blue      : α
  green     : α
  red       : α
  intensity : α
deriving DecidableEq, Repr, Inhabited

/-- The component of one plane. -/
def Planes.get {α : Type} (ps : Planes α) : Plane → α
  | .blue => ps.blue
  | .green => ps.green
  | .red => ps.red
  | .intensity => ps.intensity

/-- The planes built from a function of the plane. -/
def Planes.ofFn {α : Type} (f : Plane → α) : Planes α :=
  { blue := f .blue, green := f .green, red := f .red, intensity := f .intensity }

end Sys2Proof
end

