-- ==== Sys2Proof/Syntax.lean ====
section
/-! DEFINITION. The five commands (30_encoding.md R81) with their operands. A field a command ignores (R85) is no
operand. Every operand has the width of its field, so every term is a command the encoding admits. -/

namespace Sys2Proof

/-- The commands of the command port, one constructor per row of spec/opcode_table.json. -/
inductive Instr where
  /-- `BUILD r, g, b` (41_brush_builder.md R145). -/
  | build (red green blue : Channel)
  /-- `PLOT x, y, r, g, b` (42_pixel_compositor.md R170). -/
  | plot (x y : Coord) (red green blue : Channel)
  /-- `PLOTS x, y, r, g, b` (42_pixel_compositor.md R171). -/
  | plots (x y : Coord) (red green blue : Channel)
  /-- `SAMPLE x, y` (42_pixel_compositor.md R169). -/
  | sample (x y : Coord)
  /-- `ROMRD lvl` (43_readback.md R193). -/
  | romrd (lvl : Level)
deriving DecidableEq, Repr

/-- The mnemonics of 30_encoding.md R81. -/
inductive Mnemonic where
  | build
  | plot
  | plots
  | sample
  | romrd
deriving DecidableEq, Repr

/-- The mnemonic of a command. -/
def Instr.mnemonic : Instr → Mnemonic
  | .build _ _ _ => .build
  | .plot _ _ _ _ _ => .plot
  | .plots _ _ _ _ _ => .plots
  | .sample _ _ => .sample
  | .romrd _ => .romrd

/-- The `OP` value of a mnemonic (30_encoding.md R81). -/
def Mnemonic.op : Mnemonic → BitVec 3
  | .build => 0
  | .plot => 1
  | .plots => 2
  | .sample => 3
  | .romrd => 4

/-- One assembler line's command: a mnemonic and its operands as integers, before they are checked
(30_encoding.md R90). -/
structure AsmCommand where
  mnemonic : Mnemonic
  operands : List Nat
deriving DecidableEq, Repr

end Sys2Proof
end

