-- ==== Sys2Proof/WellFormed.lean ====
section
/-! DEFINITION. The assembler's checks (30_encoding.md R90): the operand list of a command must have the shape of its
mnemonic, each operand in its range. -/

namespace Sys2Proof

/-- The kinds of operand (30_encoding.md R82 to R84). -/
inductive OperandKind where
  | channel
  | coord
  | level
deriving DecidableEq, Repr

/-- The range of a kind: "channels outside 0..255, coordinates outside 0..65535, `lvl` outside 0..15" are refused
(30_encoding.md R90). -/
def OperandKind.admits : OperandKind → Nat → Bool
  | .channel, n => decide (n ≤ 255)
  | .coord, n => decide (n ≤ 65535)
  | .level, n => decide (n ≤ 15)

/-- The operands of each mnemonic, in the order of its syntax (30_encoding.md R90). -/
def Mnemonic.operandKinds : Mnemonic → List OperandKind
  | .build => [.channel, .channel, .channel]
  | .plot => [.coord, .coord, .channel, .channel, .channel]
  | .plots => [.coord, .coord, .channel, .channel, .channel]
  | .sample => [.coord, .coord]
  | .romrd => [.level]

/-- Every operand present, none left over, each in its range. -/
def operandsFit : List OperandKind → List Nat → Bool
  | [], [] => true
  | k :: ks, n :: ns => k.admits n && operandsFit ks ns
  | [], _ :: _ => false
  | _ :: _, [] => false

/-- What the assembler accepts (30_encoding.md R90). -/
def AsmCommand.wellFormed (c : AsmCommand) : Bool :=
  operandsFit c.mnemonic.operandKinds c.operands

/-- A command written back as an assembler line, in the operand order of its syntax (30_encoding.md R90). -/
def Instr.toAsm : Instr → AsmCommand
  | .build r g b => ⟨.build, [r.toNat, g.toNat, b.toNat]⟩
  | .plot x y r g b => ⟨.plot, [x.toNat, y.toNat, r.toNat, g.toNat, b.toNat]⟩
  | .plots x y r g b => ⟨.plots, [x.toNat, y.toNat, r.toNat, g.toNat, b.toNat]⟩
  | .sample x y => ⟨.sample, [x.toNat, y.toNat]⟩
  | .romrd lvl => ⟨.romrd, [lvl.toNat]⟩

/-- A command is well formed when the assembler accepts its line. The operand widths of `Instr` make this hold of
every term. -/
def Instr.wellFormed (i : Instr) : Bool :=
  i.toAsm.wellFormed

end Sys2Proof
end

