-- ==== Sys2Proof/Decode.lean ====
section
/-! DEFINITION. The command word (30_encoding.md R80 to R88): its fields, the decoder, total on every 64-bit word, and
the encoder, which writes every ignored field and `RSV` as 0 (R90). -/

namespace Sys2Proof

/-! ## Fields (30_encoding.md R80, R82 to R84) -/

/-- `OP`, bits 2:0. -/
def fieldOp (w : CommandWord) : BitVec 3 := w.extractLsb' 0 3

/-- `RSV`, bits 7:3. -/
def fieldRsv (w : CommandWord) : BitVec 5 := w.extractLsb' 3 5

/-- `B`, bits 15:8. -/
def fieldBlue (w : CommandWord) : Channel := w.extractLsb' 8 8

/-- `G`, bits 23:16. -/
def fieldGreen (w : CommandWord) : Channel := w.extractLsb' 16 8

/-- `R`, bits 31:24. -/
def fieldRed (w : CommandWord) : Channel := w.extractLsb' 24 8

/-- `X`, bits 47:32. -/
def fieldX (w : CommandWord) : Coord := w.extractLsb' 32 16

/-- `Y`, bits 63:48. -/
def fieldY (w : CommandWord) : Coord := w.extractLsb' 48 16

/-- `LVL`, bits 11:8; bits 15:12 are ignored (R84). -/
def fieldLevel (w : CommandWord) : Level := w.extractLsb' 8 4

/-! ## The decoder -/

/-- What the decode makes of a word (30_encoding.md R86). -/
inductive Verdict where
  /-- `OP` is 5, 6 or 7 (60_exceptions.md R212). -/
  | illegalOp
  /-- `OP` is legal and `RSV` is not 0 (60_exceptions.md R213). -/
  | rsvNonzero
  /-- The word is this command. -/
  | command (i : Instr)
deriving DecidableEq, Repr

/-- The command a legal `OP` names, with the operands of its fields (30_encoding.md R81); `none` for `OP` 5, 6, 7. -/
def commandOf (w : CommandWord) : Option Instr :=
  match (fieldOp w).toNat with
  | 0 => some (.build (fieldRed w) (fieldGreen w) (fieldBlue w))
  | 1 => some (.plot (fieldX w) (fieldY w) (fieldRed w) (fieldGreen w) (fieldBlue w))
  | 2 => some (.plots (fieldX w) (fieldY w) (fieldRed w) (fieldGreen w) (fieldBlue w))
  | 3 => some (.sample (fieldX w) (fieldY w))
  | 4 => some (.romrd (fieldLevel w))
  | _ => none

/-- The classification of every 64-bit word (30_encoding.md R86): an illegal `OP` first, then a nonzero `RSV`
(60_exceptions.md R215). -/
def decode (w : CommandWord) : Verdict :=
  match commandOf w with
  | none => .illegalOp
  | some i => if fieldRsv w = 0 then .command i else .rsvNonzero

/-! ## The encoder -/

/-- A word from its seven fields (30_encoding.md R80, the diagram: the leftmost is the most significant). -/
def packFields (y x : BitVec 16) (r g b : BitVec 8) (rsv : BitVec 5) (op : BitVec 3) : CommandWord :=
  y ++ x ++ r ++ g ++ b ++ rsv ++ op

/-- The word of a command; ignored fields and `RSV` are 0 (30_encoding.md R90). -/
def encode : Instr → CommandWord
  | .build r g b => packFields 0 0 r g b 0 0
  | .plot x y r g b => packFields y x r g b 0 1
  | .plots x y r g b => packFields y x r g b 0 2
  | .sample x y => packFields y x 0 0 0 0 3
  | .romrd lvl => packFields 0 0 0 0 ((0 : BitVec 4) ++ lvl) 0 4

/-- The bits of a word that a command reads (30_encoding.md R85): all but its ignored fields. -/
def usedBits : Mnemonic → CommandWord
  | .build => 0x00000000FFFFFFFF
  | .plot => 0xFFFFFFFFFFFFFFFF
  | .plots => 0xFFFFFFFFFFFFFFFF
  | .sample => 0xFFFFFFFF000000FF
  | .romrd => 0x0000000000000FFF

/-! ## The host's view of the table -/

/-- The word of a table row: `nbits` bits of `w`, zeros above. A command word crosses the port whole, bit `i` on wire
`i` (20_memory.md R54), so there is no byte order to choose. -/
def tableWord (nbits w : Nat) : CommandWord :=
  BitVec.ofNat 64 (w % 2 ^ nbits)

/-- The command the decoder reads from the word, if it is one. -/
def Verdict.command? : Verdict → Option Instr
  | .illegalOp => none
  | .rsvNonzero => none
  | .command i => some i

/-- What the decoder reads from a table row's word; `none` where it rejects. -/
def decodeTableWord (nbits w : Nat) : Option Instr :=
  (decode (tableWord nbits w)).command?

end Sys2Proof
end

