-- ==== Sys2Proof/Config.lean ====
section
/-! DEFINITION. What one instance of the block fixes (00_scope.md R8) and the free values: opaque constants without a
body, so that nothing can be proved of them but what holds whatever they are. -/

namespace Sys2Proof

/-- `FB_BIT_ORDER` (00_scope.md R8): which bit of a framebuffer byte holds pixel `x mod 8 = 0`. -/
inductive BitOrder where
  | msbFirst
  | lsbFirst
deriving DecidableEq, Repr

/-- The parameters the source leaves open (00_scope.md R8). `cmdLatency` and `resetLatency` are cycle counts that no
rule depends on (70_reset_and_hazards.md R250, log entry 6); the untimed step reads neither. -/
structure Params where
  ditherRom    : Rom
  romStrict    : Bool
  wBytes       : Nat
  widthPx      : Nat
  heightPx     : Nat
  cmdLatency   : Nat
  resetLatency : Nat
deriving DecidableEq, Repr, Inhabited

/-- The parameters this instance was elaborated with, unconstrained; `Machine.params` keeps to the legal ones
(DESIGN CHOICE, log entry 4). -/
opaque Config.chosen : Params

/-- `FB_BIT_ORDER` has the spec's own value `MSB_FIRST` (00_scope.md R8, 20_memory.md R52; PRESUMED by the spec from
general knowledge, log entry 5). -/
def Config.fbBitOrder : BitOrder := .msbFirst

/-- The contents of result register number `i` after the reset numbered by the first argument: unspecified
(10_state.md R36; DESIGN CHOICE, log entry 2). -/
opaque Config.freeWord : Nat → Nat → Word

/-- What a host read returns in the bits no rule fixes (43_readback.md R194; log entry 13). -/
opaque Config.freeRead : Nat → BitVec 4 → Word

/-- What the framebuffer port's outputs show while `fb_valid` is 0 (70_reset_and_hazards.md R241; log entry 14). -/
opaque Config.freePort : Nat → BitVec 32 × BitVec 3 × Pixel

/-- The bytes an out-of-bounds write leaves behind, anywhere in the framebuffer (42_pixel_compositor.md R165;
log entry 8). -/
opaque Config.freeCells : Nat → List (BitVec 32 × Planes Byte)

/-- The four bytes at an offset after two unserialised writes to it (20_memory.md R62; log entry 10). -/
opaque Config.freeBytes : Nat → Planes Byte

/-- Whether a write is committed at the very edge where reset is asserted (70_reset_and_hazards.md R242;
log entry 11). -/
opaque Config.freeCommit : Nat → Bool

/-- Which word, if any, is accepted after the host has broken the handshake (70_reset_and_hazards.md R245;
log entry 9). -/
opaque Config.freeAccept : Nat → Option CommandWord

end Sys2Proof
end

