-- ==== Sys2Proof/Machine/State.lean ====
section
/-! DEFINITION. The state of the block (10_state.md R20) and of what stands around it (the ports and the framebuffer),
as plain data, and the state right after reset. -/

namespace Sys2Proof.Machine

/-- The fields of `STATUS` (10_state.md R31). No field is writable by the host and the reserved bits are hardwired 0,
so the fields are all there is to hold; `Status.pack` is the 32-bit word (log entry 15). -/
structure Status where
  /-- Bit 0: `BRUSH0..3`, `BIDX` and `HIGH` hold a value. -/
  bvalid : Bool
  /-- Bit 1: the branch of the last successful build, 1 for the high one (R32). -/
  high   : Bool
  /-- Bit 2: the last accepted command was rejected (R33). -/
  err    : Bool
  /-- Bits 5:3: its error code, 0 when `ERR` is 0 (60_exceptions.md R211). -/
  ecode  : BitVec 3
  /-- Bits 8:6: the `OP` field of the last accepted command. -/
  lastop : BitVec 3
  /-- Bit 9: `PIX` holds a value. -/
  pvalid : Bool
  /-- Bit 10: `RDATA` holds a value. -/
  rvalid : Bool
deriving DecidableEq, Repr

/-- One write request on the framebuffer port (20_memory.md R51). -/
structure FbRequest where
  /-- `fb_offset`. -/
  offset : BitVec 32
  /-- `fb_bit`, the sub-position `x mod 8`. -/
  bit    : BitVec 3
  /-- `fb_pixel`. -/
  pixel  : Pixel
  /-- The model's own mark: the pixel lies outside the display area (42_pixel_compositor.md R165). -/
  oob    : Bool
deriving DecidableEq, Repr

/-- `phase` (10_state.md R40). `exec` holds the command word sampled at acceptance (30_encoding.md R96), `fbwait` the
request held stable on the framebuffer port (70_reset_and_hazards.md R248). -/
inductive Phase where
  | idle
  | exec (word : CommandWord)
  | fbwait (request : FbRequest)
deriving DecidableEq, Repr

/-- Where the block stands in its reset sequence (70_reset_and_hazards.md R240, R241, R243). -/
inductive Boot where
  /-- Reset is asserted, or released but not yet sampled as released. -/
  | held
  /-- The block has left reset and `cmd_ready` is still 0. -/
  | settling
  /-- `RESET_LATENCY` has elapsed: `cmd_ready` is 1 exactly in `IDLE`. -/
  | running
deriving DecidableEq, Repr

/-- What another writer of the framebuffer leaves at one offset in this step (20_memory.md R56, R62; log entry 10). -/
structure OtherWrite where
  offset   : BitVec 32
  /-- The byte it leaves in each plane. -/
  bytes    : Planes Byte
  /-- The environment does not serialise it against a write of this block in the same step. -/
  overlaps : Bool
deriving DecidableEq, Repr

/-- The values on the block's input ports at one step (30_encoding.md R95), with what another writer does in it and
whether the OPEN latency now running (`CMD_LATENCY`, `RESET_LATENCY`) has elapsed by it (log entries 1 and 6). -/
structure StepInput where
  /-- `rst_n`, active low (70_reset_and_hazards.md R240). -/
  rstN        : Bool
  /-- `cmd_valid`. -/
  cmdValid    : Bool
  /-- `cmd_word`. -/
  cmdWord     : CommandWord
  /-- `rsel`, the host's read index (43_readback.md R190). -/
  rsel        : BitVec 4
  /-- `fb_ready`. -/
  fbReady     : Bool
  latencyOver : Bool
  other       : Option OtherWrite
deriving DecidableEq, Repr

/-- The model faults of 60_exceptions.md R218: recorded, never cleared (log entry 7). -/
structure ModelFaults where
  /-- `PRECOND_OOB`: a PLOT or PLOTS outside the display area. Unsafe for the caller: the framebuffer is open after. -/
  precondOob   : Bool
  /-- `HOST_PROTOCOL`: the host broke 70_reset_and_hazards.md R245. -/
  hostProtocol : Bool
  /-- `FB_RACE`: the environment let another write overlap this block's write at the same offset. -/
  fbRace       : Bool
deriving DecidableEq, Repr

/-- One plane of the framebuffer, as bytes by offset: the listed ones, strictly rising, none equal to what an unlisted
byte reads as (`Memory.wf`). -/
abbrev Memory := List Host.Cell

/-- What a framebuffer byte that nothing has written reads as (DESIGN CHOICE, unsafe, log entry 3: the spec leaves the
framebuffer to the environment; the programs of 95_test_vectors.md start from 0x00). -/
def Memory.unlisted : Byte := 0x00

/-- The machine: the block's registers and sequencing state, the framebuffer, the input ports, and the model's own
records (INVENTORY.md, State). -/
structure State where
  /-- `BRUSH0` (blue), `BRUSH1` (green), `BRUSH2` (red), `BRUSH3` (intensity): 10_state.md R24. -/
  brush     : Planes Word
  /-- `BIDX` (10_state.md R25). -/
  bidx      : Pixel
  /-- `PIX` (10_state.md R26). -/
  pix       : Pixel
  /-- `RDATA` (10_state.md R27). -/
  rdata     : Word
  /-- `STATUS` (10_state.md R31). -/
  status    : Status
  /-- `phase` (10_state.md R40). -/
  phase     : Phase
  /-- The reset sequence (70_reset_and_hazards.md R243). -/
  boot      : Boot
  /-- The environment's framebuffer planes `FB[0..3]` (20_memory.md R52). -/
  fb        : Planes Memory
  /-- The values on the input ports at the step about to run. -/
  inputs    : StepInput
  /-- The input values of the following steps (log entry 1). -/
  script    : List StepInput
  /-- The word the host has raised and the block has not accepted (70_reset_and_hazards.md R245 (a); log entry 9). -/
  offered   : Option CommandWord
  /-- The host has broken R245 and which word, if any, is accepted is open (log entry 9). -/
  unsettled : Bool
  /-- The model faults recorded so far (60_exceptions.md R218). -/
  faults    : ModelFaults
  /-- The framebuffer writes committed so far, oldest first (20_memory.md R59; log entry 16). -/
  writes    : List FbRequest
  /-- Steps taken: the index that makes each free value a fresh one (log entry 21). -/
  tick      : Nat
deriving DecidableEq, Repr

/-- How a step stops. Only the stuck state of the spec is one. -/
inductive Fault where
  /-- Raised by `step` in `FBWAIT` with `fb_ready` 0 when no further input stands in the script: `fb_ready` never
  rises, and the block is stuck (10_state.md R41, 70_reset_and_hazards.md R248; log entry 12). Safe: the command is
  never taken as completed, and the model claims nothing after it. -/
  | fbStuck
deriving DecidableEq, Repr

/-- Why a step has no meaning. No command of this model is refused. -/
inductive Refusal where
  /-- Raised by `exec` for a command that has no meaning yet (none now). Safe: nothing is claimed of it. -/
  | notModelled (mnemonic : String)
deriving DecidableEq, Repr

/-- `STATUS` after reset: 0x00000000 (10_state.md R36). -/
def Status.reset : Status :=
  { bvalid := false, high := false, err := false, ecode := 0, lastop := 0, pvalid := false, rvalid := false }

/-- The contents of the four brush registers after the reset numbered `n`: unspecified (10_state.md R36). -/
def freeBrush (n : Nat) : Planes Word :=
  { blue := Config.freeWord n 0, green := Config.freeWord n 1, red := Config.freeWord n 2,
    intensity := Config.freeWord n 3 }

/-- The input ports with no command presented and the framebuffer ready (DESIGN CHOICE, log entry 22). -/
def StepInput.quiet : StepInput :=
  { rstN := true, cmdValid := false, cmdWord := 0, rsel := 0, fbReady := true, latencyOver := true, other := none }

/-- The machine right after reset (70_reset_and_hazards.md R241): `STATUS` 0, `phase` IDLE, `cmd_ready` 0, the result
registers unspecified (free values, DESIGN CHOICE, log entry 2). -/
def State.reset : State :=
  { brush := freeBrush 0
    bidx := (Config.freeWord 0 4).setWidth 4
    pix := (Config.freeWord 0 5).setWidth 4
    rdata := Config.freeWord 0 6
    status := Status.reset
    phase := .idle
    boot := .settling
    fb := { blue := [], green := [], red := [], intensity := [] }
    inputs := StepInput.quiet
    script := []
    offered := none
    unsettled := false
    faults := { precondOob := false, hostProtocol := false, fbRace := false }
    writes := []
    tick := 0 }

end Sys2Proof.Machine
end

