-- ==== Sys2Proof/Machine/Flags.lean ====
section
/-! DEFINITION. `STATUS`: how each flag is written (10_state.md R31 to R33, 60_exceptions.md R211, R216) and the word
the host reads. -/

namespace Sys2Proof.Machine

/-- The causes of a rejection (60_exceptions.md R211). -/
inductive ErrorCode where
  | illegalOp
  | rsvNonzero
  | noBrush
deriving DecidableEq, Repr

/-- The `ECODE` value of a cause (60_exceptions.md R211). -/
def ErrorCode.bits : ErrorCode → BitVec 3
  | .illegalOp => 1
  | .rsvNonzero => 2
  | .noBrush => 3

/-- A successful command's `ERR`, `ECODE` and `LASTOP` (10_state.md R33). -/
def Status.succeeded (st : Status) (op : BitVec 3) : Status :=
  { st with err := false, ecode := 0, lastop := op }

/-- A rejected command's `ERR`, `ECODE` and `LASTOP` (10_state.md R33, 60_exceptions.md R216). -/
def Status.rejected (st : Status) (e : ErrorCode) (op : BitVec 3) : Status :=
  { st with err := true, ecode := e.bits, lastop := op }

/-- A successful build: `HIGH` records its branch, `BVALID` is set (10_state.md R31, R32). -/
def Status.built (st : Status) (high : Bool) : Status :=
  { st with bvalid := true, high := high }

/-- `PIX` holds a value (10_state.md R31). -/
def Status.pixelLatched (st : Status) : Status :=
  { st with pvalid := true }

/-- `RDATA` holds a value (10_state.md R31). -/
def Status.romRead (st : Status) : Status :=
  { st with rvalid := true }

/-- The 32-bit word (10_state.md R31): `BVALID` is bit 0, then `HIGH`, `ERR`, `ECODE`, `LASTOP`, `PVALID`, `RVALID`,
and bits 31:11 are 0. -/
def Status.pack (st : Status) : Word :=
  (0 : BitVec 21) ++ BitVec.ofBool st.rvalid ++ BitVec.ofBool st.pvalid ++ st.lastop ++ st.ecode
    ++ BitVec.ofBool st.err ++ BitVec.ofBool st.high ++ BitVec.ofBool st.bvalid

end Sys2Proof.Machine
end

