-- ==== Sys2Proof/Machine/Operands.lean ====
section
/-! DEFINITION. The operand forms of the datapath: the value and branch of a triple, the ROM levels of the builder
(41_brush_builder.md R130 to R137), the tile position, sub-position and offset of a coordinate
(42_pixel_compositor.md R160, R163, R164). -/

namespace Sys2Proof.Machine

/-! ## Levels of the builder -/

/-- The larger of two unsigned channels. -/
def maxChannel (a b : Channel) : Channel := if a < b then b else a

/-- `v = max(red, green, blue)` (41_brush_builder.md R130). -/
def value (red green blue : Channel) : Channel := maxChannel (maxChannel red green) blue

/-- `H = v[7]`, the high branch (41_brush_builder.md R131). -/
def highBranch (v : Channel) : Bool := v.getLsbD 7

/-- `iI = (~v)[6:3]` (41_brush_builder.md R132). -/
def intensityLevel (v : Channel) : Level := (~~~v).extractLsb' 3 4

/-- `lc = (zext_12(c) << 4) / (zext_9(v) + 8)`, truncating, held in 4 bits (41_brush_builder.md R134). -/
def highLevel (v c : Channel) : Level :=
  let num : BitVec 12 := c.setWidth 12 <<< 4
  let den : BitVec 9 := v.setWidth 9 + 8
  (num / den.setWidth 12).setWidth 4

/-- `lc = c >> 3` (41_brush_builder.md R137). -/
def lowLevel (c : Channel) : Level := (c >>> 3).setWidth 4

/-! ## Coordinates of the compositor -/

/-- `tx = x[1:0]` or `ty = y[1:0]` (42_pixel_compositor.md R160). -/
def tileCoord (c : Coord) : BitVec 2 := c.extractLsb' 0 2

/-- `n = 8*ty + tx`, 0..27 (42_pixel_compositor.md R161). -/
def tileBit (x y : Coord) : Nat := 8 * (tileCoord y).toNat + (tileCoord x).toNat

/-- `fb_bit = x[2:0]` (42_pixel_compositor.md R163). -/
def subPosition (x : Coord) : BitVec 3 := x.extractLsb' 0 3

/-- `fb_offset = zext_32(y) * W_BYTES + zext_32(x >> 3)` (42_pixel_compositor.md R164). -/
def fbOffset (wBytes : Nat) (x y : Coord) : BitVec 32 :=
  y.setWidth 32 * BitVec.ofNat 32 wBytes + (x >>> 3).setWidth 32

/-- The pixel lies outside the display area (42_pixel_compositor.md R165). -/
def outOfBounds (widthPx heightPx : Nat) (x y : Coord) : Bool :=
  decide (widthPx ≤ x.toNat) || decide (heightPx ≤ y.toNat)

end Sys2Proof.Machine
end

