-- ==== Sys2Proof/Machine/Rom.lean ====
section
/-! DEFINITION. `dither_pattern_rom` (40_tables.md R110 to R118), the constraints on its contents and on the other
open parameters (00_scope.md R8), and the parameters the machine runs with. -/

namespace Sys2Proof.Machine

/-- The 16 tile positions of a brush or ROM word: bit `8r + c`, row `r` and column `c` in 0..3 (20_memory.md R53). -/
def tilePositions : List Nat :=
  [0, 1, 2, 3, 8, 9, 10, 11, 16, 17, 18, 19, 24, 25, 26, 27]

/-- `D`: the set bits of a word among the 16 tile positions (40_tables.md R114). -/
def tileDensity (w : Word) : Nat :=
  tilePositions.countP fun n => w.getLsbD n

/-- The one bits of a word (00_scope.md R9). -/
def popcount (w : Word) : Nat :=
  (List.range 32).countP fun n => w.getLsbD n

/-- Each row holds its four tile columns twice (40_tables.md R115). -/
def replicated (w : Word) : Bool :=
  tilePositions.all fun n => w.getLsbD (n + 4) == w.getLsbD n

/-- `ROM[i]`: a pure read (40_tables.md R118). -/
def romAt (rom : Rom) (i : Level) : Word :=
  rom.get i.toFin

/-- Every constraint the spec puts on the table: R111, R112, R114 (its density clause; the popcount clause follows by
R115), R115, and R116 where `ROM_STRICT` holds. -/
def romLegal (strict : Bool) (rom : Rom) : Bool :=
  rom.get 0 == 0x00000000
    && rom.get 15 == 0xFFFFFFFF
    && (List.finRange 15).all (fun i => decide (tileDensity (rom.get i.castSucc) ≤ tileDensity (rom.get i.succ)))
    && (List.finRange 16).all (fun i => replicated (rom.get i))
    && (!strict ||
      (List.finRange 15).all (fun i => decide (tileDensity (rom.get i.castSucc) < tileDensity (rom.get i.succ))))

/-- The ranges of 00_scope.md R8. -/
def paramsLegal (p : Params) : Bool :=
  romLegal p.romStrict p.ditherRom
    && decide (1 ≤ p.wBytes) && decide (p.wBytes ≤ 65535)
    && decide (1 ≤ p.widthPx) && decide (p.widthPx ≤ 65536) && decide (p.widthPx ≤ 8 * p.wBytes)
    && decide (1 ≤ p.heightPx) && decide (p.heightPx ≤ 65536)
    && decide (1 ≤ p.cmdLatency)

/-- The fixture `EX_ROM` of 95_test_vectors.md section 2: one legal table, not the hardware's contents. -/
def exRom : Rom :=
  #v[0x00000000, 0x00000011, 0x00440011, 0x00440055, 0x00550055, 0x00552255, 0x88552255, 0x8855AA55,
     0xAA55AA55, 0xAA55AA77, 0xAADDAA77, 0xAADDAAFF, 0xAAFFAAFF, 0xAAFFBBFF, 0xEEFFBBFF, 0xFFFFFFFF]

/-- One legal choice of every parameter: the example configuration of 95_test_vectors.md section 4. -/
def exParams : Params :=
  { ditherRom := exRom, romStrict := true, wBytes := 80, widthPx := 640, heightPx := 480,
    cmdLatency := 1, resetLatency := 0 }

/-- The parameters of this instance: any legal ones. The chosen ones where they are legal; the fallback is itself one
legal choice, so nothing follows of `params` but what every legal choice has (DESIGN CHOICE, log entry 4). -/
def params : Params :=
  if paramsLegal Config.chosen then Config.chosen else exParams

/-- The ROM of this instance, `DITHER_ROM` at all times (40_tables.md R117). -/
def rom : Rom := params.ditherRom

end Sys2Proof.Machine
end

