-- ==== Sys2Proof/Machine/Ops.lean ====
section
/-! DEFINITION. The operations the commands share: bytes of a plane, the framebuffer merge and commit
(20_memory.md R51, R52, R62), latching results, the error response (60_exceptions.md R216, the only "exception" of
the block; there is no return from it, R221), and reset (70_reset_and_hazards.md R241, R242). -/

namespace Sys2Proof.Machine

/-! ## One plane -/

/-- The byte at an offset. -/
def Memory.read : Memory → Nat → Byte
  | [], _ => Memory.unlisted
  | (k, v) :: m, a => if a = k then v else Memory.read m a

/-- A byte put before the cells above it, or left out where it is what an unlisted byte reads as. -/
def Memory.put (a : Nat) (b : Byte) (m : Memory) : Memory :=
  if b = Memory.unlisted then m else (a, b) :: m

/-- The byte at an offset replaced, in canonical form. -/
def Memory.write : Memory → Nat → Byte → Memory
  | [], a, b => Memory.put a b []
  | (k, v) :: m, a, b =>
    if a < k then Memory.put a b ((k, v) :: m)
    else if a = k then Memory.put a b m
    else (k, v) :: Memory.write m a b

/-- The canonical form: offsets of 32 bits, strictly rising, no entry equal to what an unlisted byte reads as. -/
def Memory.wf : Memory → Bool
  | [] => true
  | (k, v) :: m =>
    decide (k < 2 ^ 32) && decide (v ≠ Memory.unlisted) && m.all (fun c => decide (k < c.1)) && Memory.wf m

/-! ## The framebuffer -/

/-- The position of pixel `fb_bit` in its byte (20_memory.md R52). -/
def pixelPosition (order : BitOrder) (bit : BitVec 3) : Nat :=
  match order with
  | .msbFirst => 7 - bit.toNat
  | .lsbFirst => bit.toNat

/-- A byte with one bit replaced. -/
def setBit (b : Byte) (pos : Nat) (v : Bool) : Byte :=
  (b &&& ~~~(1#8 <<< pos)) ||| ((BitVec.ofBool v).setWidth 8 <<< pos)

/-- The four bytes at an offset (20_memory.md R52). -/
def bytesAt (fb : Planes Memory) (offset : BitVec 32) : Planes Byte :=
  Planes.ofFn fun p => (fb.get p).read offset.toNat

/-- The four bytes at an offset replaced together (20_memory.md R56). -/
def putBytes (fb : Planes Memory) (offset : BitVec 32) (bytes : Planes Byte) : Planes Memory :=
  Planes.ofFn fun p => (fb.get p).write offset.toNat (bytes.get p)

/-- One pixel's four bits put into four bytes: `FB[p][offset][pos] <- pixel[p]` (20_memory.md R52). -/
def mergePixel (order : BitOrder) (bytes : Planes Byte) (bit : BitVec 3) (pixel : Pixel) : Planes Byte :=
  Planes.ofFn fun p => setBit (bytes.get p) (pixelPosition order bit) (pixel.getLsbD p.index)

/-- The effect of a committed write (20_memory.md R52): one indivisible update of the four planes. -/
def fbMerge (fb : Planes Memory) (offset : BitVec 32) (bit : BitVec 3) (pixel : Pixel) : Planes Memory :=
  putBytes fb offset (mergePixel Config.fbBitOrder (bytesAt fb offset) bit pixel)

/-- The framebuffer with any bytes anywhere: what an out-of-bounds write may leave (42_pixel_compositor.md R165,
log entry 8). -/
def scramble (fb : Planes Memory) : List (BitVec 32 × Planes Byte) → Planes Memory
  | [] => fb
  | (offset, bytes) :: rest => scramble (putBytes fb offset bytes) rest

/-- Another writer's write overlaps this block's write at an offset in this step (20_memory.md R62). -/
def races (other : Option OtherWrite) (offset : BitVec 32) : Bool :=
  match other with
  | some o => o.overlaps && o.offset == offset
  | none => false

/-- The framebuffer after a request is committed: the merge of R52; open everywhere when the pixel is out of bounds
(42_pixel_compositor.md R165); open at the offset when another write overlaps it (20_memory.md R62). -/
def fbCommitted (s : State) (req : FbRequest) : Planes Memory :=
  let after := if req.oob then scramble s.fb (Config.freeCells s.tick)
    else fbMerge s.fb req.offset req.bit req.pixel
  if races s.inputs.other req.offset then putBytes after req.offset (Config.freeBytes s.tick) else after

/-- The write is committed (20_memory.md R51): the framebuffer takes it, `phase` returns to `IDLE`
(10_state.md R40), and a race is recorded (60_exceptions.md R218). -/
def State.commit (s : State) (req : FbRequest) : State :=
  { s with
    fb := fbCommitted s req
    writes := s.writes ++ [req]
    faults := { s.faults with fbRace := s.faults.fbRace || races s.inputs.other req.offset }
    phase := .idle }

/-- `FBWrite` (20_memory.md R51): committed at once where `fb_ready` is 1, else held on the port in `FBWAIT`
(10_state.md R40). -/
def State.fbWrite (s : State) (req : FbRequest) : State :=
  if s.inputs.fbReady then s.commit req else { s with phase := .fbwait req }

/-- The request of a pixel at a coordinate (42_pixel_compositor.md R163, R164). -/
def pixelRequest (x y : Coord) (pixel : Pixel) : FbRequest :=
  { offset := fbOffset params.wBytes x y, bit := subPosition x, pixel := pixel,
    oob := outOfBounds params.widthPx params.heightPx x y }

/-- A PLOT or PLOTS outside the display area records `PRECOND_OOB` (42_pixel_compositor.md R165). The spec does not say
when: the model records it when the command completes or enters `FBWAIT`, so one that reset abandons in `EXEC` records
none (DESIGN CHOICE, log entry 26). -/
def State.recordBounds (s : State) (req : FbRequest) : State :=
  { s with faults := { s.faults with precondOob := s.faults.precondOob || req.oob } }

/-! ## Results -/

/-- What a build gives (41_brush_builder.md R140). -/
structure Built where
  brush : Planes Word
  bidx  : Pixel
  high  : Bool
deriving DecidableEq, Repr

/-- The brush, its index and its branch latched (10_state.md R24, R25, R32). -/
def State.latchBuild (s : State) (b : Built) : State :=
  { s with brush := b.brush, bidx := b.bidx, status := s.status.built b.high }

/-- A pixel latched in `PIX` (10_state.md R26). -/
def State.latchPixel (s : State) (p : Pixel) : State :=
  { s with pix := p, status := s.status.pixelLatched }

/-- A ROM word latched in `RDATA` (10_state.md R27). -/
def State.latchRom (s : State) (w : Word) : State :=
  { s with rdata := w, status := s.status.romRead }

/-- The command succeeds and completes (10_state.md R33, R40). -/
def State.succeed (s : State) (op : BitVec 3) : State :=
  { s with status := s.status.succeeded op, phase := .idle }

/-- The error response, the whole effect of a rejected command (60_exceptions.md R216). -/
def State.reject (s : State) (e : ErrorCode) (op : BitVec 3) : State :=
  { s with status := s.status.rejected e op, phase := .idle }

/-! ## Reset -/

/-- The state while reset is asserted (70_reset_and_hazards.md R241): the result registers are unspecified, a command
in flight is abandoned (R242). The framebuffer, the ROM and the recorded model faults are not the block's to reset. -/
def State.clear (s : State) : State :=
  { s with
    brush := freeBrush (s.tick + 1)
    bidx := (Config.freeWord (s.tick + 1) 4).setWidth 4
    pix := (Config.freeWord (s.tick + 1) 5).setWidth 4
    rdata := Config.freeWord (s.tick + 1) 6
    status := Status.reset
    phase := .idle
    boot := .held }

/-- A write on the port when reset is asserted is withdrawn; at the very edge where the framebuffer takes it, both
outcomes are possible (70_reset_and_hazards.md R242, log entry 11). -/
def State.withdraw (s : State) : State :=
  match s.phase with
  | .fbwait req => if s.inputs.fbReady && Config.freeCommit s.tick then s.commit req else s
  | .idle => s
  | .exec _ => s

/-- Reset asserted in any phase (70_reset_and_hazards.md R240 to R242). -/
def State.assertReset (s : State) : State :=
  s.withdraw.clear

end Sys2Proof.Machine
end

