-- ==== Sys2Proof/Machine/Palette.lean ====
section
/-! DEFINITION. `palette_index_lut` (40_tables.md R120 to R123). -/

namespace Sys2Proof.Machine

/-- The selected bit of a channel: its top bit in the high branch, bit 6 in the low one (40_tables.md R120). -/
def selectedBit (high : Bool) (c : Channel) : Bool :=
  if high then c.getLsbD 7 else c.getLsbD 6

/-- `base = {H, sr, sg, sb}` (40_tables.md R121). -/
def baseIndex (high : Bool) (red green blue : Channel) : Pixel :=
  BitVec.ofBool high ++ BitVec.ofBool (selectedBit high red) ++ BitVec.ofBool (selectedBit high green)
    ++ BitVec.ofBool (selectedBit high blue)

/-- All three channels exceed 31 (40_tables.md R122). -/
def nearBlack (red green blue : Channel) : Bool :=
  decide (31 < red) && decide (31 < green) && decide (31 < blue)

/-- The best-match index, with the near-black fallback of the low branch (40_tables.md R122). -/
def paletteIndex (high : Bool) (red green blue : Channel) : Pixel :=
  let base := baseIndex high red green blue
  if !high && base == 0 && nearBlack red green blue then 0x8 else base

end Sys2Proof.Machine
end

