-- ==== Sys2Proof/Machine/Builder.lean ====
section
/-! DEFINITION. The brush builder's datapath (41_brush_builder.md R130 to R142) and BUILD (R145). -/

namespace Sys2Proof.Machine

/-- The brush of the high branch (41_brush_builder.md R133, R135). -/
def highBrush (rom : Rom) (red green blue : Channel) : Planes Word :=
  let v := value red green blue
  { blue := romAt rom (highLevel v blue)
    green := romAt rom (highLevel v green)
    red := romAt rom (highLevel v red)
    intensity := ~~~romAt rom (intensityLevel v) }

/-- The brush of the low branch (41_brush_builder.md R136, R138). -/
def lowBrush (rom : Rom) (red green blue : Channel) : Planes Word :=
  { blue := romAt rom (lowLevel blue)
    green := romAt rom (lowLevel green)
    red := romAt rom (lowLevel red)
    intensity := 0x00000000 }

/-- `build(red, green, blue)` over a ROM (41_brush_builder.md R140). -/
def build (rom : Rom) (red green blue : Channel) : Built :=
  let high := highBranch (value red green blue)
  { brush := if high then highBrush rom red green blue else lowBrush rom red green blue
    bidx := paletteIndex high red green blue
    high := high }

/-- BUILD (41_brush_builder.md R145). -/
def execBuild (red green blue : Channel) (s : State) : Host.Outcome State Fault Refusal :=
  .next ((s.latchBuild (build rom red green blue)).succeed 0#3)

end Sys2Proof.Machine
end

