-- ==== Sys2Proof/Machine/Compositor.lean ====
section
/-! DEFINITION. The pixel compositor (42_pixel_compositor.md R160 to R168) and SAMPLE (R169), PLOT (R170) and
PLOTS (R171). -/

namespace Sys2Proof.Machine

/-- `compose`: one bit of each plane at the tile position (42_pixel_compositor.md R168). -/
def compose (brush : Planes Word) (x y : Coord) : Pixel :=
  let n := tileBit x y
  BitVec.ofBool (brush.intensity.getLsbD n) ++ BitVec.ofBool (brush.red.getLsbD n)
    ++ BitVec.ofBool (brush.green.getLsbD n) ++ BitVec.ofBool (brush.blue.getLsbD n)

/-- What PLOT and PLOTS share (42_pixel_compositor.md R170, R171): latch the build and the pixel, record the
bounds (when: DESIGN CHOICE, log entry 26), then write it. -/
def State.plotPixel (s : State) (op : BitVec 3) (b : Built) (x y : Coord) (pixel : Pixel) : State :=
  let req := pixelRequest x y pixel
  ((((s.latchBuild b).latchPixel pixel).succeed op).recordBounds req).fbWrite req

/-- SAMPLE (42_pixel_compositor.md R169); NO_BRUSH while `BVALID` is 0 (60_exceptions.md R214). -/
def execSample (x y : Coord) (s : State) : Host.Outcome State Fault Refusal :=
  if s.status.bvalid then .next ((s.latchPixel (compose s.brush x y)).succeed 3#3)
  else .next (s.reject .noBrush 3#3)

/-- PLOT (42_pixel_compositor.md R170): the pixel is composited from the brush just built. -/
def execPlot (x y : Coord) (red green blue : Channel) (s : State) : Host.Outcome State Fault Refusal :=
  let b := build rom red green blue
  .next (s.plotPixel 1#3 b x y (compose b.brush x y))

/-- PLOTS (42_pixel_compositor.md R171): the pixel is the best-match index. -/
def execPlots (x y : Coord) (red green blue : Channel) (s : State) : Host.Outcome State Fault Refusal :=
  let b := build rom red green blue
  .next (s.plotPixel 2#3 b x y b.bidx)

end Sys2Proof.Machine
end

