-- ==== Sys2Proof/Machine/Readback.lean ====
section
/-! DEFINITION. ROMRD (43_readback.md R193), the host's read port (R190 to R192, R194) and the block's other output
ports (30_encoding.md R95). -/

namespace Sys2Proof.Machine

/-- ROMRD (43_readback.md R193). -/
def execRomrd (lvl : Level) (s : State) : Host.Outcome State Fault Refusal :=
  .next ((s.latchRom (romAt rom lvl)).succeed 4#3)

/-! ## The read port -/

/-- The contents a read index names, zero-extended (43_readback.md R191); indices 8..15 read 0. -/
def State.registerAt (s : State) (rsel : BitVec 4) : Word :=
  match rsel.toNat with
  | 0 => s.status.pack
  | 1 => s.brush.blue
  | 2 => s.brush.green
  | 3 => s.brush.red
  | 4 => s.brush.intensity
  | 5 => s.bidx.setWidth 32
  | 6 => s.pix.setWidth 32
  | 7 => s.rdata
  | _ => 0x00000000

/-- The valid bit of a read index (43_readback.md R191). -/
def State.indexValid (s : State) (rsel : BitVec 4) : Bool :=
  match rsel.toNat with
  | 1 | 2 | 3 | 4 | 5 => s.status.bvalid
  | 6 => s.status.pvalid
  | 7 => s.status.rvalid
  | _ => true

/-- Reset is asserted or not yet left: `rdata` is undefined but for indices 8..15 (70_reset_and_hazards.md R241). -/
def State.inReset (s : State) : Bool :=
  !s.inputs.rstN || s.boot == .held

/-- A rule fixes what the read returns: indices 8..15 always (43_readback.md R192); the others while `phase` is `IDLE`,
out of reset, with their valid bit set (R190, R194). -/
def State.readSpecified (s : State) (rsel : BitVec 4) : Bool :=
  decide (8 ≤ rsel.toNat) || (s.phase == .idle && !s.inReset && s.indexValid rsel)

/-- The bits of an index that always read 0 (43_readback.md R192). -/
def zeroBits (rsel : BitVec 4) : Word :=
  if rsel = 5 ∨ rsel = 6 then 0xFFFFFFF0 else 0x00000000

/-- `rdata` for a read index: the register where a rule fixes it, else a free value in the bits R192 leaves open
(43_readback.md R190, R194; log entry 13). -/
def State.readPort (s : State) (rsel : BitVec 4) : Word :=
  if s.readSpecified rsel then s.registerAt rsel else Config.freeRead s.tick rsel &&& ~~~zeroBits rsel

/-- What a read tells the host: a value, or nothing (43_readback.md R194). -/
def State.readKnown (s : State) (rsel : BitVec 4) : Option Word :=
  if s.readSpecified rsel then some (s.registerAt rsel) else none

/-! ## Output ports (30_encoding.md R95) -/

/-- `cmd_ready`: 1 exactly when `phase` is `IDLE` and the reset latency has elapsed (R95); 0 while reset is asserted
(70_reset_and_hazards.md R241). -/
def State.cmdReady (s : State) : Bool :=
  s.phase == .idle && s.boot == .running && s.inputs.rstN

/-- `fb_valid`: 1 exactly in `FBWAIT` (10_state.md R40); 0 while reset is asserted (70_reset_and_hazards.md R241). -/
def State.fbValid (s : State) : Bool :=
  match s.phase with
  | .fbwait _ => s.inputs.rstN
  | .idle => false
  | .exec _ => false

/-- `fb_offset`, `fb_bit`, `fb_pixel`: the request in `FBWAIT`, else free values (log entry 14). -/
def State.fbPort (s : State) : BitVec 32 × BitVec 3 × Pixel :=
  match s.phase with
  | .fbwait req => if s.inputs.rstN then (req.offset, req.bit, req.pixel) else Config.freePort s.tick
  | .idle => Config.freePort s.tick
  | .exec _ => Config.freePort s.tick

/-- The `rdata` port at the index the host drives. -/
def State.rdataPort (s : State) : Word := s.readPort s.inputs.rsel

end Sys2Proof.Machine
end

