-- ==== Sys2Proof/Machine/Dispatch.lean ====
section
/-! DEFINITION. The meaning of each command, one arm per constructor of `Instr`. -/

namespace Sys2Proof.Machine

def exec (i : Instr) (s : State) : Host.Outcome State Fault Refusal :=
  match i with
  | .build r g b => Sys2Proof.Machine.execBuild r g b s
  | .plot x y r g b => Sys2Proof.Machine.execPlot x y r g b s
  | .plots x y r g b => Sys2Proof.Machine.execPlots x y r g b s
  | .sample x y => Sys2Proof.Machine.execSample x y s
  | .romrd lvl => Sys2Proof.Machine.execRomrd lvl s

end Sys2Proof.Machine
end

