-- ==== Sys2Proof/Machine/Sequencer.lean ====
section
/-! DEFINITION. One step of the block: the command handshake (30_encoding.md R96, 70_reset_and_hazards.md R245), the
phases (10_state.md R40, R41), reset (70_reset_and_hazards.md R240 to R243) and the inputs of the next step. The step
is a transaction, not a clock cycle (00_scope.md R11). -/

namespace Sys2Proof.Machine

/-! ## The environment's part of a step -/

/-- Another writer's bytes reach the framebuffer (20_memory.md R62, log entry 10). -/
def State.observeOther (s : State) : State :=
  match s.inputs.other with
  | some o => { s with fb := putBytes s.fb o.offset o.bytes }
  | none => s

/-- The host breaks its duties in this step (70_reset_and_hazards.md R245): (a) a raised word dropped or changed before
it is accepted, (b) `cmd_valid` raised during reset. -/
def State.protocolBroken (s : State) : Bool :=
  if s.inputs.rstN then
    match s.offered with
    | some w => !(s.inputs.cmdValid && s.inputs.cmdWord == w)
    | none => false
  else s.inputs.cmdValid

/-- A broken handshake is recorded as `HOST_PROTOCOL` and leaves open which word, if any, is accepted
(70_reset_and_hazards.md R245, 60_exceptions.md R218; log entry 9). -/
def State.noteProtocol (s : State) : State :=
  { s with
    faults := { s.faults with hostProtocol := s.faults.hostProtocol || s.protocolBroken }
    unsettled := s.unsettled || s.protocolBroken }

/-- The inputs after the script ends (DESIGN CHOICE, log entry 1): reset released, a word not yet accepted still held
up as R245 (a) asks, nothing new presented, the latencies elapsed, no other writer. -/
def StepInput.held (inp : StepInput) (accepted : Bool) : StepInput :=
  { inp with rstN := true, cmdValid := inp.cmdValid && !accepted, latencyOver := true, other := none }

/-- The step ends: the next inputs stand on the ports. -/
def State.advance (s : State) (accepted : Bool) : State :=
  { s with
    inputs := s.script.headD (s.inputs.held accepted)
    script := s.script.tail
    offered := if s.inputs.rstN && s.inputs.cmdValid && !accepted then some s.inputs.cmdWord else none
    tick := s.tick + 1 }

/-! ## The block's part -/

/-- The word accepted when `cmd_ready` is 1: the one presented (30_encoding.md R96), or any or none after a broken
handshake (70_reset_and_hazards.md R245, log entry 9). -/
def State.acceptedWord (s : State) : Option CommandWord :=
  if s.unsettled then Config.freeAccept s.tick
  else if s.inputs.cmdValid then some s.inputs.cmdWord
  else none

/-- A command word completes: the command's meaning, or the error response of a word that names none
(60_exceptions.md R212, R213, R216). -/
def State.complete (s : State) (w : CommandWord) : Host.Outcome State Fault Refusal :=
  match decode w with
  | .command i => exec i s
  | .illegalOp => .next (s.reject .illegalOp (fieldOp w))
  | .rsvNonzero => .next (s.reject .rsvNonzero (fieldOp w))

/-- The end of a step after an outcome. -/
def finish (accepted : Bool) : Host.Outcome State Fault Refusal → Host.Outcome State Fault Refusal
  | .next s => .next (s.advance accepted)
  | .fault r => .fault r
  | .refused r => .refused r

/-- `IDLE` with `cmd_ready` 1: accept the word there is, and complete it in the same step unless `CMD_LATENCY` has not
elapsed (10_state.md R40, R41; log entry 6); without one, wait (60_exceptions.md R227). -/
def State.idleStep (s : State) : Host.Outcome State Fault Refusal :=
  match s.acceptedWord with
  | none => finish false (.next { s with unsettled := false })
  | some w =>
    if s.inputs.latencyOver then finish true ({ s with unsettled := false }.complete w)
    else finish true (.next { s with unsettled := false, phase := .exec w })

/-- One step with reset released, by `phase` (10_state.md R40). -/
def State.runStep (s : State) : Host.Outcome State Fault Refusal :=
  match s.phase with
  | .idle => s.idleStep
  | .exec w => if s.inputs.latencyOver then finish false (s.complete w) else finish false (.next s)
  | .fbwait req =>
    if s.inputs.fbReady then finish false (.next (s.commit req))
    else if s.script.isEmpty then .fault .fbStuck
    else finish false (.next s)

/-- The step in which reset is sampled as released, and those of `RESET_LATENCY` (70_reset_and_hazards.md R240, R243):
`cmd_ready` is 0 in it. -/
def State.bootStep (s : State) : Host.Outcome State Fault Refusal :=
  finish false (.next { s with boot := if s.inputs.latencyOver then .running else .settling })

/-- One step of the machine, after the environment's part. -/
def State.blockStep (s : State) : Host.Outcome State Fault Refusal :=
  if s.inputs.rstN then
    match s.boot with
    | .held => s.bootStep
    | .settling => s.bootStep
    | .running => s.runStep
  else finish false (.next s.assertReset)

/-- The environment's part of a step, before the block's. -/
def State.observe (s : State) : State := s.observeOther.noteProtocol

/-! ## Presenting a command -/

/-- The host presents a word on the port of a running, idle block, with no earlier word pending
(log entry 24). -/
def State.present (s : State) (w : CommandWord) : State :=
  { s with
    phase := .idle
    boot := .running
    offered := none
    unsettled := false
    inputs := { s.inputs with rstN := true, cmdValid := true, cmdWord := w, latencyOver := true } }

end Sys2Proof.Machine
end

