-- ==== Sys2Proof/Machine/Step.lean ====
section
/-! DEFINITION. The step of the machine, and how the host places a command where the next step takes it. -/

namespace Sys2Proof.Machine

/-- One step: what the environment does, then what the block does (Machine/Sequencer.lean). -/
def step (s : State) : Host.Outcome State Fault Refusal :=
  s.observe.blockStep

/-- The machine with a table row's word presented on the command port, so that the very next step accepts and runs it
(log entry 24). -/
def State.withFetchWord (s : State) (nbits w : Nat) : State :=
  s.present (tableWord nbits w)

end Sys2Proof.Machine
end

