-- ==== Sys2Proof/Machine/Assembler.lean ====
section
/-! DEFINITION. The assembler and the program listings of the spec (30_encoding.md R90, R91), over lists of
characters. A listing line becomes a command word or a host read; the lexical conventions the spec leaves open are in
log entry 20. -/

namespace Sys2Proof.Machine

/-! ## Characters and numbers -/

/-- A space or a tab. -/
def isBlank (c : Char) : Bool := c == ' ' || c == '\t'

/-- Blanks removed at both ends. -/
def trimBlanks (cs : List Char) : List Char :=
  ((cs.dropWhile isBlank).reverse.dropWhile isBlank).reverse

/-- `;` begins a comment (30_encoding.md R90). -/
def stripComment (cs : List Char) : List Char := cs.takeWhile (· != ';')

/-- The pieces between commas. -/
def splitCommas : List Char → List (List Char)
  | [] => [[]]
  | c :: cs =>
    match splitCommas cs with
    | [] => [[c]]
    | p :: ps => if c == ',' then [] :: p :: ps else (c :: p) :: ps

/-- The value of a hexadecimal digit, of either case. -/
def hexDigit (c : Char) : Option Nat :=
  let n := c.toNat
  if 48 ≤ n ∧ n ≤ 57 then some (n - 48)
  else if 97 ≤ n ∧ n ≤ 102 then some (n - 87)
  else if 65 ≤ n ∧ n ≤ 70 then some (n - 55)
  else none

/-- Digits of a base, most significant first, added to what stands before them. -/
def digitsFrom (base acc : Nat) : List Char → Option Nat
  | [] => some acc
  | c :: cs =>
    match hexDigit c with
    | some d => if d < base then digitsFrom base (acc * base + d) cs else none
    | none => none

/-- "decimal or `0x` hexadecimal integers" (30_encoding.md R90). -/
def parseNumber : List Char → Option Nat
  | [] => none
  | '0' :: 'x' :: c :: cs => digitsFrom 16 0 (c :: cs)
  | c :: cs => digitsFrom 10 0 (c :: cs)

/-- Every operand of a list, or none. -/
def parseNumbers : List (List Char) → Option (List Nat)
  | [] => some []
  | p :: ps =>
    match parseNumber (trimBlanks p), parseNumbers ps with
    | some n, some ns => some (n :: ns)
    | _, _ => none

/-- "The mnemonic is case-insensitive" (30_encoding.md R90). -/
def parseMnemonic (cs : List Char) : Option Mnemonic :=
  let low := cs.map Char.toLower
  if low = ['b', 'u', 'i', 'l', 'd'] then some .build
  else if low = ['p', 'l', 'o', 't'] then some .plot
  else if low = ['p', 'l', 'o', 't', 's'] then some .plots
  else if low = ['s', 'a', 'm', 'p', 'l', 'e'] then some .sample
  else if low = ['r', 'o', 'm', 'r', 'd'] then some .romrd
  else none

/-! ## Commands -/

/-- The command of an operand list of the right shape, each operand cut to its field. -/
def operandsInstr (c : AsmCommand) : Option Instr :=
  match c.mnemonic, c.operands with
  | .build, [r, g, b] => some (.build (.ofNat 8 r) (.ofNat 8 g) (.ofNat 8 b))
  | .plot, [x, y, r, g, b] => some (.plot (.ofNat 16 x) (.ofNat 16 y) (.ofNat 8 r) (.ofNat 8 g) (.ofNat 8 b))
  | .plots, [x, y, r, g, b] => some (.plots (.ofNat 16 x) (.ofNat 16 y) (.ofNat 8 r) (.ofNat 8 g) (.ofNat 8 b))
  | .sample, [x, y] => some (.sample (.ofNat 16 x) (.ofNat 16 y))
  | .romrd, [lvl] => some (.romrd (.ofNat 4 lvl))
  | _, _ => none

/-- "The assembler refuses an operand out of range" (30_encoding.md R90). -/
def assemble (c : AsmCommand) : Option CommandWord :=
  if c.wellFormed then (operandsInstr c).map encode else none

/-- A command line: a mnemonic, then its operands separated by commas. -/
def parseCommand (line : List Char) : Option AsmCommand :=
  let body := trimBlanks (stripComment line)
  let head := body.takeWhile (fun c => !isBlank c)
  let rest := body.dropWhile (fun c => !isBlank c)
  match parseMnemonic head, parseNumbers (splitCommas rest) with
  | some m, some ns => some ⟨m, ns⟩
  | _, _ => none

/-! ## Listings (30_encoding.md R91) -/

/-- What a listing line asks of the host. -/
inductive HostAction where
  /-- A command word sent on the command port. -/
  | send (w : CommandWord)
  /-- `RD`: a host read through the read port. -/
  | read (rsel : BitVec 4)
deriving DecidableEq, Repr

/-- The name of a result register, or a numeric read index (30_encoding.md R91, 43_readback.md R191). -/
def parseRegister (cs : List Char) : Option (BitVec 4) :=
  if cs = ['S', 'T', 'A', 'T', 'U', 'S'] then some 0
  else if cs = ['B', 'R', 'U', 'S', 'H', '0'] then some 1
  else if cs = ['B', 'R', 'U', 'S', 'H', '1'] then some 2
  else if cs = ['B', 'R', 'U', 'S', 'H', '2'] then some 3
  else if cs = ['B', 'R', 'U', 'S', 'H', '3'] then some 4
  else if cs = ['B', 'I', 'D', 'X'] then some 5
  else if cs = ['P', 'I', 'X'] then some 6
  else if cs = ['R', 'D', 'A', 'T', 'A'] then some 7
  else
    match parseNumber cs with
    | some n => if n ≤ 15 then some (.ofNat 4 n) else none
    | none => none

/-- `0x` and exactly 16 hexadecimal digits (30_encoding.md R91). -/
def parseRawWord : List Char → Option CommandWord
  | '0' :: 'x' :: ds => if ds.length = 16 then (digitsFrom 16 0 ds).map (BitVec.ofNat 64) else none
  | _ => none

/-- One line of a listing: a command, `RD name` or `RAW word` (30_encoding.md R90, R91). -/
def parseLine (line : List Char) : Option HostAction :=
  let body := trimBlanks (stripComment line)
  let head := body.takeWhile (fun c => !isBlank c)
  let rest := trimBlanks (body.dropWhile (fun c => !isBlank c))
  if head = ['R', 'D'] then (parseRegister rest).map .read
  else if head = ['R', 'A', 'W'] then (parseRawWord rest).map .send
  else
    match parseCommand line with
    | some c => (assemble c).map .send
    | none => none

/-- Nothing but blanks and a comment (log entry 20). -/
def isEmptyLine (line : List Char) : Bool := (trimBlanks (stripComment line)).isEmpty

/-- A listing's lines in order; lines that hold nothing are passed over, and a line that is none of the spec's refuses
the listing (30_encoding.md R90, R91). -/
def parseListing : List (List Char) → Option (List HostAction)
  | [] => some []
  | line :: lines =>
    if isEmptyLine line then parseListing lines
    else
      match parseLine line, parseListing lines with
      | some a, some as => some (a :: as)
      | _, _ => none

end Sys2Proof.Machine
end

