-- ==== Sys2Proof/Machine/Listing.lean ====
section
/-! DEFINITION. The host that runs a program listing: "Before each command and each `RD`, the host waits for
`cmd_ready` = 1" (30_encoding.md R91). It drives its own ports only; reset, the framebuffer's environment and the
latencies are those of the machine's inputs and script. -/

namespace Sys2Proof.Machine

/-- The values the host puts on its ports for the step about to run (30_encoding.md R95). -/
def State.hostDrives (s : State) (valid : Bool) (word : CommandWord) (rsel : BitVec 4) : State :=
  { s with inputs := { s.inputs with cmdValid := valid, cmdWord := word, rsel := rsel } }

/-- A machine with the host of a listing: the lines it has still to do, and what its reads have told it, oldest
first. -/
structure ListingRun where
  machine : State
  todo    : List HostAction
  reads   : List (BitVec 4 × Option Word)
deriving DecidableEq, Repr

/-- The host may go on to its next line: `cmd_ready` is 1 and no word of its own is pending (30_encoding.md R91). -/
def ListingRun.ready (r : ListingRun) : Bool :=
  r.machine.cmdReady && r.machine.offered.isNone

/-- The line the host does in this step, if it does one. -/
def ListingRun.line (r : ListingRun) : Option HostAction :=
  if r.ready then r.todo.head? else none

/-- The machine with the ports of a host that does no line in this step: a word it had raised stays up, as
70_reset_and_hazards.md R245 (a) asks, but not in reset, as (b) asks. -/
def State.hostWaits (s : State) : State :=
  match s.offered with
  | some w => s.hostDrives s.inputs.rstN w s.inputs.rsel
  | none => s.hostDrives false s.inputs.cmdWord s.inputs.rsel

/-- The machine with the host's ports as the line asks: the word of a command presented, or the index of a read selected
and no command presented (30_encoding.md R91; log entry 27). -/
def ListingRun.driven (r : ListingRun) : State :=
  match r.line with
  | some (.send w) => r.machine.hostDrives true w r.machine.inputs.rsel
  | some (.read rsel) => r.machine.hostDrives false r.machine.inputs.cmdWord rsel
  | none => r.machine.hostWaits

/-- The lines left after this step. -/
def ListingRun.left (r : ListingRun) : List HostAction :=
  if r.ready then r.todo.tail else r.todo

/-- The reads after this step: `RD` adds what the read port tells (43_readback.md R190, R194). -/
def ListingRun.told (r : ListingRun) : List (BitVec 4 × Option Word) :=
  match r.line with
  | some (.read rsel) => r.reads ++ [(rsel, r.driven.readKnown rsel)]
  | some (.send _) => r.reads
  | none => r.reads

/-- One step of the machine under the host of the listing. -/
def ListingRun.step (r : ListingRun) : Host.Outcome ListingRun Fault Refusal :=
  match Sys2Proof.Machine.step r.driven with
  | .next t => .next { machine := t, todo := r.left, reads := r.told }
  | .fault f => .fault f
  | .refused f => .refused f

/-- A machine whose host is about to run a listing. -/
def State.withProgram (s : State) (actions : List HostAction) : ListingRun :=
  { machine := s, todo := actions, reads := [] }

/-- Some steps, until one stops. -/
def ListingRun.run : Nat → ListingRun → Host.Outcome ListingRun Fault Refusal
  | 0, r => .next r
  | n + 1, r =>
    match r.step with
    | .next r' => ListingRun.run n r'
    | .fault f => .fault f
    | .refused f => .refused f

end Sys2Proof.Machine
end

