-- ==== Sys2Proof/Safety.lean ====
section
/-! DEFINITION. What claims about a run are stated in: the invariant of the block, the premise that no model fault is
recorded, and what the environment holds still. -/

namespace Sys2Proof.Machine

/-- "No model fault recorded", the premise of a claim about a run (60_exceptions.md R218). -/
def State.faultFree (s : State) : Prop :=
  s.faults.precondOob = false ∧ s.faults.hostProtocol = false ∧ s.faults.fbRace = false

/-- No recorded model fault is missing in the second (60_exceptions.md R218, "never cleared"). -/
def ModelFaults.le (a b : ModelFaults) : Prop :=
  (a.precondOob = true → b.precondOob = true)
    ∧ (a.hostProtocol = true → b.hostProtocol = true)
    ∧ (a.fbRace = true → b.fbRace = true)

/-- Every plane of the framebuffer is in canonical form. -/
def framebufferWf (fb : Planes Memory) : Prop :=
  ∀ p : Plane, (fb.get p).wf = true

/-- `STATUS` is consistent (10_state.md R31, R33; 60_exceptions.md R211 to R214): `ERR` is 1 exactly with a nonzero
`ECODE`; a success and an `RSV_NONZERO` name a legal `OP`, an `ILLEGAL_OP` an illegal one, a `NO_BRUSH` the SAMPLE;
`NO_BRUSH` and `BVALID` do not stand together; `HIGH` and `PVALID` stand only with `BVALID`. -/
def Status.consistent (st : Status) : Prop :=
  (st.err = true ↔ st.ecode ≠ 0)
    ∧ st.ecode.toNat ≤ 3
    ∧ (st.ecode = 0 → st.lastop.toNat ≤ 4)
    ∧ (st.ecode = 1 → 5 ≤ st.lastop.toNat)
    ∧ (st.ecode = 2 → st.lastop.toNat ≤ 4)
    ∧ (st.ecode = 3 → st.lastop = 3 ∧ st.bvalid = false)
    ∧ (st.high = true → st.bvalid = true)
    ∧ (st.pvalid = true → st.bvalid = true)

/-- A valid brush is the build of some triple, with its index and branch (10_state.md R24, R25, R31). -/
def State.brushBuilt (s : State) : Prop :=
  s.status.bvalid = true →
    ∃ r g b : Channel, s.brush = (build rom r g b).brush ∧ s.bidx = (build rom r g b).bidx
      ∧ s.status.high = (build rom r g b).high

/-- A valid `RDATA` is an entry of the ROM (10_state.md R27). -/
def State.rdataRead (s : State) : Prop :=
  s.status.rvalid = true → ∃ lvl : Level, s.rdata = romAt rom lvl

/-- A request on the port belongs to the last successful PLOT or PLOTS and carries its pixel (10_state.md R26, R40). -/
def State.requestLatched (s : State) : Prop :=
  ∀ req : FbRequest, s.phase = .fbwait req →
    req.pixel = s.pix ∧ s.status.pvalid = true ∧ s.status.err = false
      ∧ (s.status.lastop = 1 ∨ s.status.lastop = 2)
      ∧ (req.oob = true → s.faults.precondOob = true)

/-- The block leaves `IDLE` only when it runs, out of reset (70_reset_and_hazards.md R241, R243). -/
def State.busyRuns (s : State) : Prop :=
  s.phase ≠ .idle → s.boot = .running

/-- An open acceptance comes from a recorded violation (70_reset_and_hazards.md R245). -/
def State.unsettledRecorded (s : State) : Prop :=
  s.unsettled = true → s.faults.hostProtocol = true

/-- The invariant of the machine: it holds right after reset and every step keeps it. -/
def State.Inv (s : State) : Prop :=
  framebufferWf s.fb ∧ s.status.consistent ∧ s.brushBuilt ∧ s.rdataRead ∧ s.requestLatched ∧ s.busyRuns
    ∧ s.unsettledRecorded

/-- The machine is ready to accept the word its host presents, and to complete it in this step: `cmd_ready` is 1, the
host is within R245, and `CMD_LATENCY` elapses within the step (30_encoding.md R96, 10_state.md R41). -/
def State.accepts (s : State) (w : CommandWord) : Prop :=
  s.cmdReady = true ∧ s.inputs.cmdValid = true ∧ s.inputs.cmdWord = w ∧ s.inputs.latencyOver = true
    ∧ s.unsettled = false ∧ (s.offered = none ∨ s.offered = some w)

/-! ## Frames -/

/-- Nothing around the block has moved: reset sequence, ports, script, handshake record, counter. -/
def State.sameSurroundings (s t : State) : Prop :=
  t.boot = s.boot ∧ t.inputs = s.inputs ∧ t.script = s.script ∧ t.offered = s.offered
    ∧ t.unsettled = s.unsettled ∧ t.tick = s.tick

/-- Every byte of every plane reads as before, and no write was committed. -/
def State.sameFramebuffer (s t : State) : Prop :=
  (∀ (p : Plane) (o : BitVec 32), (t.fb.get p).read o.toNat = (s.fb.get p).read o.toNat) ∧ t.writes = s.writes

/-- Every register the host can read is as before. -/
def State.sameRegisters (s t : State) : Prop :=
  t.brush = s.brush ∧ t.bidx = s.bidx ∧ t.pix = s.pix ∧ t.rdata = s.rdata ∧ t.status = s.status

/-- The brush, index and branch that a build latches are the same in both. -/
def State.sameBuild (s t : State) : Prop :=
  t.brush = s.brush ∧ t.bidx = s.bidx ∧ t.status.high = s.status.high

/-- The one request a command issues: committed where `fb_ready` is 1, else held in `FBWAIT`
(20_memory.md R51, 42_pixel_compositor.md R166). -/
def State.issues (s t : State) (q : FbRequest) : Prop :=
  (s.inputs.fbReady = true → t.writes = s.writes ++ [q] ∧ t.phase = .idle)
    ∧ (s.inputs.fbReady = false → t.writes = s.writes ∧ t.phase = .fbwait q)

/-- The density increases at every entry of a table, and no entry below 15 is all-on (40_tables.md R116). -/
def strictlyDenser (table : Rom) : Prop :=
  (∀ i j : Level, i.toNat + 1 = j.toNat → tileDensity (romAt table i) < tileDensity (romAt table j))
    ∧ ∀ i : Level, i.toNat ≤ 14 → tileDensity (romAt table i) ≤ 15 ∧ romAt table i ≠ 0xFFFFFFFF

/-- `v = max(R,G,B)` as a number (41_brush_builder.md R130). -/
def valueNat (red green blue : Channel) : Nat :=
  max (max red.toNat green.toNat) blue.toNat

/-- One pixel is stored and nothing else (20_memory.md R52 with `MSB_FIRST`): in each plane bit `7 - bit` of the byte
at the offset is the pixel's bit of that plane, the byte's other bits and every other byte read as before. -/
def pixelStored (before after : Planes Memory) (offset : BitVec 32) (bit : BitVec 3) (pixel : Pixel) : Prop :=
  ∀ p : Plane,
    ((after.get p).read offset.toNat).getLsbD (7 - bit.toNat) = pixel.getLsbD p.index
      ∧ (∀ j : Nat, j ≠ 7 - bit.toNat →
          ((after.get p).read offset.toNat).getLsbD j = ((before.get p).read offset.toNat).getLsbD j)
      ∧ (∀ o : BitVec 32, o ≠ offset → (after.get p).read o.toNat = (before.get p).read o.toNat)

/-- The pixel lies in the display area (20_memory.md R58). -/
def inDisplay (x y : Coord) : Prop :=
  x.toNat < params.widthPx ∧ y.toNat < params.heightPx

/-- The word plots no pixel outside the display area (42_pixel_compositor.md R165). -/
def wordInDisplay (w : CommandWord) : Prop :=
  match decode w with
  | .command (.plot x y _ _ _) => inDisplay x y
  | .command (.plots x y _ _ _) => inDisplay x y
  | .command (.build _ _ _) => True
  | .command (.sample _ _) => True
  | .command (.romrd _) => True
  | .illegalOp => True
  | .rsvNonzero => True

/-- `PRECOND_OOB` is recorded exactly where it was or where the pixel lies outside the display area
(42_pixel_compositor.md R165); `HOST_PROTOCOL` is as before. -/
def State.boundsRecorded (s t : State) (x y : Coord) : Prop :=
  (t.faults.precondOob = true ↔ s.faults.precondOob = true ∨ ¬ inDisplay x y)
    ∧ t.faults.hostProtocol = s.faults.hostProtocol

/-- What PLOT and PLOTS leave in the registers, committed or waiting (42_pixel_compositor.md R170, R171): the build of
the triple, the pixel, the flags; `RDATA` and `RVALID` as before. -/
def State.plotLatched (s t : State) (op : BitVec 3) (red green blue : Channel) (pixel : Pixel) : Prop :=
  t.brush = (build rom red green blue).brush ∧ t.bidx = (build rom red green blue).bidx ∧ t.pix = pixel
    ∧ t.rdata = s.rdata
    ∧ t.status = { bvalid := true, high := decide (127 < valueNat red green blue), err := false, ecode := 0,
                   lastop := op, pvalid := true, rvalid := s.status.rvalid }

end Sys2Proof.Machine
end

