-- ==== Sys2Proof/Certificates/Slice0/Obligations.lean ====
section
/-! DEFINITION. The statements for the provers. Each docstring names the rules of spec/ it rests on. -/

open Sys2Proof Sys2Proof.Machine

/-! ## The command word (30_encoding.md) -/

/-- Decoding the word of any command gives that command back, with every operand at every value. -/
def Obligations.DecodeInvertsEncode : Prop :=
  ∀ i : Instr, decode (encode i) = .command i

/-- The word of a decoded command is the word it was decoded from, with its ignored fields (R85) cleared. -/
def Obligations.EncodeRestoresUsedBits : Prop :=
  ∀ (w : CommandWord) (i : Instr), decode w = .command i → encode i = w &&& usedBits i.mnemonic

/-- R86: every word is classified by `OP` (bits 2:0) and `RSV` (bits 7:3), `OP` first. -/
def Obligations.DecodeClassifiesEveryWord : Prop :=
  ∀ w : CommandWord,
    (5 ≤ w.toNat % 8 → decode w = .illegalOp)
      ∧ (w.toNat % 8 < 5 → w.toNat / 8 % 32 ≠ 0 → decode w = .rsvNonzero)
      ∧ (w.toNat % 8 < 5 → w.toNat / 8 % 32 = 0 →
          ∃ i : Instr, decode w = .command i ∧ i.mnemonic.op.toNat = w.toNat % 8)

/-- R80 to R84: each operand of a decoded command is the number in its field of the word. -/
def Obligations.OperandsAreTheWordsFields : Prop :=
  ∀ (w : CommandWord) (i : Instr), decode w = .command i →
    match i with
    | .build r g b =>
      r.toNat = w.toNat / 2 ^ 24 % 256 ∧ g.toNat = w.toNat / 2 ^ 16 % 256 ∧ b.toNat = w.toNat / 2 ^ 8 % 256
    | .plot x y r g b =>
      x.toNat = w.toNat / 2 ^ 32 % 65536 ∧ y.toNat = w.toNat / 2 ^ 48
        ∧ r.toNat = w.toNat / 2 ^ 24 % 256 ∧ g.toNat = w.toNat / 2 ^ 16 % 256 ∧ b.toNat = w.toNat / 2 ^ 8 % 256
    | .plots x y r g b =>
      x.toNat = w.toNat / 2 ^ 32 % 65536 ∧ y.toNat = w.toNat / 2 ^ 48
        ∧ r.toNat = w.toNat / 2 ^ 24 % 256 ∧ g.toNat = w.toNat / 2 ^ 16 % 256 ∧ b.toNat = w.toNat / 2 ^ 8 % 256
    | .sample x y => x.toNat = w.toNat / 2 ^ 32 % 65536 ∧ y.toNat = w.toNat / 2 ^ 48
    | .romrd lvl => lvl.toNat = w.toNat / 2 ^ 8 % 16

/-- R85: two words that differ only in the ignored fields of the command they name complete alike in every state, and
the assembler writes those fields as 0. -/
def Obligations.IgnoredFieldsHaveNoEffect : Prop :=
  (∀ (s : State) (w w' : CommandWord) (i : Instr), decode w = .command i →
      w &&& usedBits i.mnemonic = w' &&& usedBits i.mnemonic → s.complete w' = s.complete w)
    ∧ (∀ i : Instr, encode i &&& ~~~usedBits i.mnemonic = 0)
    ∧ usedBits .build = 0x00000000FFFFFFFF ∧ usedBits .sample = 0xFFFFFFFF000000FF
    ∧ usedBits .romrd = 0x0000000000000FFF
    ∧ usedBits .plot = 0xFFFFFFFFFFFFFFFF ∧ usedBits .plots = 0xFFFFFFFFFFFFFFFF

/-- The worked encodings (the spec's own inference from R80 to R84, at R93), assembled and decoded. -/
def Obligations.WorkedEncodings : Prop :=
  assemble ⟨.build, [200, 50, 50]⟩ = some 0x00000000C8323200
    ∧ assemble ⟨.plot, [5, 3, 200, 50, 50]⟩ = some 0x00030005C8323201
    ∧ assemble ⟨.plots, [5, 3, 200, 50, 50]⟩ = some 0x00030005C8323202
    ∧ assemble ⟨.sample, [6, 1]⟩ = some 0x0001000600000003
    ∧ assemble ⟨.romrd, [6]⟩ = some 0x0000000000000604
    ∧ decode 0x00000000C8323200 = .command (.build 200 50 50)
    ∧ decode 0x00030005C8323201 = .command (.plot 5 3 200 50 50)
    ∧ decode 0x00030005C8323202 = .command (.plots 5 3 200 50 50)
    ∧ decode 0x0001000600000003 = .command (.sample 6 1)
    ∧ decode 0x0000000000000604 = .command (.romrd 6)
    ∧ decode 0x0000000000000005 = .illegalOp
    ∧ decode 0x0000000000000008 = .rsvNonzero

/-- R90: the assembler writes each operand in its field and 0 elsewhere, and refuses an operand out of its range. -/
def Obligations.AssemblerWritesFieldsOrRefuses : Prop :=
  (∀ r g b : Nat, assemble ⟨.build, [r, g, b]⟩ =
      if r ≤ 255 ∧ g ≤ 255 ∧ b ≤ 255 then some (BitVec.ofNat 64 (b * 2 ^ 8 + g * 2 ^ 16 + r * 2 ^ 24)) else none)
    ∧ (∀ x y r g b : Nat, assemble ⟨.plot, [x, y, r, g, b]⟩ =
      if x ≤ 65535 ∧ y ≤ 65535 ∧ r ≤ 255 ∧ g ≤ 255 ∧ b ≤ 255 then
        some (BitVec.ofNat 64 (1 + b * 2 ^ 8 + g * 2 ^ 16 + r * 2 ^ 24 + x * 2 ^ 32 + y * 2 ^ 48)) else none)
    ∧ (∀ x y r g b : Nat, assemble ⟨.plots, [x, y, r, g, b]⟩ =
      if x ≤ 65535 ∧ y ≤ 65535 ∧ r ≤ 255 ∧ g ≤ 255 ∧ b ≤ 255 then
        some (BitVec.ofNat 64 (2 + b * 2 ^ 8 + g * 2 ^ 16 + r * 2 ^ 24 + x * 2 ^ 32 + y * 2 ^ 48)) else none)
    ∧ (∀ x y : Nat, assemble ⟨.sample, [x, y]⟩ =
      if x ≤ 65535 ∧ y ≤ 65535 then some (BitVec.ofNat 64 (3 + x * 2 ^ 32 + y * 2 ^ 48)) else none)
    ∧ ∀ lvl : Nat, assemble ⟨.romrd, [lvl]⟩ =
      if lvl ≤ 15 then some (BitVec.ofNat 64 (4 + lvl * 2 ^ 8)) else none

/-! ## The ROM and the datapath (40_tables.md, 41_brush_builder.md) -/

/-- R111, R112, R114, R115: the constraints on the table, of the ROM every command reads. -/
def Obligations.RomMeetsItsConstraints : Prop :=
  romAt rom 0 = 0x00000000 ∧ romAt rom 15 = 0xFFFFFFFF
    ∧ (∀ i j : Level, i.toNat + 1 = j.toNat →
        tileDensity (romAt rom i) ≤ tileDensity (romAt rom j) ∧ popcount (romAt rom i) ≤ popcount (romAt rom j))
    ∧ (∀ i : Level, popcount (romAt rom i) = 2 * tileDensity (romAt rom i))
    ∧ tileDensity (romAt rom 0) = 0 ∧ tileDensity (romAt rom 15) = 16
    ∧ (∃ d : Nat, d ≤ 16 ∧ ∀ i : Level, tileDensity (romAt rom i) ≠ d)
    ∧ ∀ (i : Level) (r c : Nat), r < 4 → c < 4 →
        (romAt rom i).getLsbD (8 * r + 4 + c) = (romAt rom i).getLsbD (8 * r + c)
          ∧ (~~~romAt rom i).getLsbD (8 * r + 4 + c) = (~~~romAt rom i).getLsbD (8 * r + c)

/-- R116: in a legal strict table the density increases at every entry, so no entry below 15 is all-on; and so in the
ROM of the instance, unless its `ROM_STRICT` (an open parameter, R8) does not hold. -/
def Obligations.StrictTableIncreases : Prop :=
  (∀ table : Rom, romLegal true table = true → strictlyDenser table)
    ∧ (params.romStrict = false ∨ strictlyDenser rom)

/-- Every reading of `(~v >> 3) & 0xF` gives the same level in the high branch (the spec's own inference, at R132:
"The result does not depend on the width at which `~v` is taken"). -/
def Obligations.IntensityLevelReadings : Prop :=
  ∀ v : Channel, 128 ≤ v.toNat →
    (intensityLevel v).toNat = (255 - v.toNat) / 8 % 16
      ∧ (intensityLevel v).toNat = 15 - (v.toNat - 128) / 8
      ∧ (intensityLevel v).setWidth 8 = ((~~~v) >>> 3) &&& 0xF#8
      ∧ (intensityLevel v).setWidth 8 = ((~~~v).sshiftRight 3) &&& 0xF#8
      ∧ (intensityLevel v).setWidth 16 = ((~~~(v.setWidth 16)) >>> 3) &&& 0xF#16
      ∧ (intensityLevel v).setWidth 16 = ((~~~(v.setWidth 16)).sshiftRight 3) &&& 0xF#16
      ∧ (intensityLevel v).setWidth 32 = ((~~~(v.setWidth 32)) >>> 3) &&& 0xF#32
      ∧ (intensityLevel v).setWidth 32 = ((~~~(v.setWidth 32)).sshiftRight 3) &&& 0xF#32

/-- The high branch's chrominance level is the exact truncating quotient, always 0..15, and 15 for the channel equal to
`v` (R134 with the bounds (a) and (b) that the spec infers there). -/
def Obligations.ChrominanceLevelIsExactQuotient : Prop :=
  (∀ v c : Channel, 128 ≤ v.toNat → c.toNat ≤ v.toNat →
      (highLevel v c).toNat = c.toNat * 16 / (v.toNat + 8) ∧ c.toNat * 16 / (v.toNat + 8) ≤ 15
        ∧ c.toNat * 16 ≤ 4080 ∧ 136 ≤ v.toNat + 8 ∧ v.toNat + 8 ≤ 263 ∧ (highLevel v v).toNat = 15)
    ∧ ∀ v : Channel, 120 ≤ v.toNat → 15 ≤ 16 * v.toNat / (v.toNat + 8)

/-- R120 to R122: the index by the source's own expressions. -/
def Obligations.PaletteIndexBySourceExpressions : Prop :=
  ∀ r g b : Channel,
    (127 < valueNat r g b →
      (paletteIndex (highBranch (value r g b)) r g b).setWidth 8 =
        (0x08#8 ||| ((r &&& 0x80#8) >>> 5 ||| (g &&& 0x80#8) >>> 6 ||| (b &&& 0x80#8) >>> 7)))
      ∧ (valueNat r g b ≤ 127 →
        (paletteIndex (highBranch (value r g b)) r g b).setWidth 8 =
          (if ((r &&& 0x40#8) >>> 4 ||| (g &&& 0x40#8) >>> 5 ||| (b &&& 0x40#8) >>> 6) = 0#8
              ∧ 31 < r.toNat ∧ 31 < g.toNat ∧ 31 < b.toNat
            then 0x08#8 else ((r &&& 0x40#8) >>> 4 ||| (g &&& 0x40#8) >>> 5 ||| (b &&& 0x40#8) >>> 6)))

/-- Index 0x8 comes from exactly the triples with every channel in 32..63; the low branch gives 0..8, the high branch
9..15 (the spec's own inference from R120 to R122 and R131, at R125). -/
def Obligations.BrightBlackReachability : Prop :=
  ∀ (table : Rom) (r g b : Channel),
    ((build table r g b).bidx = 0x8 ↔
        (32 ≤ r.toNat ∧ r.toNat ≤ 63) ∧ (32 ≤ g.toNat ∧ g.toNat ≤ 63) ∧ (32 ≤ b.toNat ∧ b.toNat ≤ 63))
      ∧ (valueNat r g b ≤ 127 → (build table r g b).bidx.toNat ≤ 8)
      ∧ (127 < valueNat r g b → 9 ≤ (build table r g b).bidx.toNat)

/-- R136: the low branch's intensity plane is 0, whatever the ROM holds. -/
def Obligations.NoIntensityInLowBranch : Prop :=
  ∀ (table : Rom) (r g b : Channel), valueNat r g b ≤ 127 →
    (build table r g b).brush.intensity = 0x00000000

/-- In the high branch the plane of every channel equal to `v` is full; a pure red at full value lights its own plane
and the intensity plane only (the spec's own inference, at R151). -/
def Obligations.ValueChannelPlaneIsFull : Prop :=
  (∀ r g b : Channel, 127 < valueNat r g b →
      (b.toNat = valueNat r g b → (build rom r g b).brush.blue = 0xFFFFFFFF)
        ∧ (g.toNat = valueNat r g b → (build rom r g b).brush.green = 0xFFFFFFFF)
        ∧ (r.toNat = valueNat r g b → (build rom r g b).brush.red = 0xFFFFFFFF))
    ∧ (build rom 255 0 0).brush = { blue := 0x00000000, green := 0x00000000, red := 0xFFFFFFFF,
                                    intensity := 0xFFFFFFFF }

/-- The intensity plane is all-zero for `v` in 128..135, and from 136 on exactly where its entry is all-on, which a
legal strict table never has there (the spec's own inference, at R152). -/
def Obligations.IntensityNearTheThreshold : Prop :=
  (∀ r g b : Channel, 128 ≤ valueNat r g b → valueNat r g b ≤ 135 →
      intensityLevel (value r g b) = 15 ∧ (build rom r g b).brush.intensity = 0x00000000)
    ∧ (∀ r g b : Channel, 136 ≤ valueNat r g b →
      (intensityLevel (value r g b)).toNat ≤ 14
        ∧ ((build rom r g b).brush.intensity ≠ 0 ↔ romAt rom (intensityLevel (value r g b)) ≠ 0xFFFFFFFF))
    ∧ ∀ (table : Rom) (r g b : Channel), romLegal true table = true → 136 ≤ valueNat r g b →
      (build table r g b).brush.intensity ≠ 0

/-- With the other channels and `v` fixed, a channel that grows does not lower its level nor its plane's density, in
either branch (the spec's own inference, at R153). -/
def Obligations.DensityGrowsWithTheChannel : Prop :=
  ∀ r g b c : Channel,
    (valueNat c g b = valueNat r g b → r.toNat ≤ c.toNat →
        tileDensity (build rom r g b).brush.red ≤ tileDensity (build rom c g b).brush.red)
      ∧ (valueNat r c b = valueNat r g b → g.toNat ≤ c.toNat →
        tileDensity (build rom r g b).brush.green ≤ tileDensity (build rom r c b).brush.green)
      ∧ (valueNat r g c = valueNat r g b → b.toNat ≤ c.toNat →
        tileDensity (build rom r g b).brush.blue ≤ tileDensity (build rom r g c).brush.blue)
      ∧ (r.toNat ≤ c.toNat → c.toNat ≤ 127 → (lowLevel r).toNat ≤ (lowLevel c).toNat)
      ∧ (r.toNat ≤ c.toNat → c.toNat ≤ b.toNat → 127 < b.toNat → (highLevel b r).toNat ≤ (highLevel b c).toNat)

/-- In the high branch the intensity level falls and the intensity plane's density rises with `v`, from 0 at
`v <= 135` to 16 at `v >= 248` (the spec's own inference, at R154). -/
def Obligations.IntensityGrowsWithTheValue : Prop :=
  ∀ r g b r' g' b' : Channel, 127 < valueNat r g b → valueNat r g b ≤ valueNat r' g' b' →
    (intensityLevel (value r' g' b')).toNat ≤ (intensityLevel (value r g b)).toNat
      ∧ tileDensity (build rom r g b).brush.intensity = 16 - tileDensity (romAt rom (intensityLevel (value r g b)))
      ∧ tileDensity (build rom r g b).brush.intensity ≤ tileDensity (build rom r' g' b').brush.intensity
      ∧ (valueNat r g b ≤ 135 → tileDensity (build rom r g b).brush.intensity = 0)
      ∧ (248 ≤ valueNat r g b → tileDensity (build rom r g b).brush.intensity = 16)

/-- Black, white and greys (the spec's own inferences, at R155 and R156). The brush does not jump at the branch boundary
and the index does; a grey of the high branch fills its three chrominance planes. -/
def Obligations.BlackWhiteAndGreyBuilds : Prop :=
  (build rom 127 127 127).brush = (build rom 128 128 128).brush
    ∧ (build rom 127 127 127).brush = { blue := romAt rom 15, green := romAt rom 15, red := romAt rom 15,
                                        intensity := 0 }
    ∧ (build rom 127 127 127).bidx = 0x7 ∧ (build rom 128 128 128).bidx = 0xF
    ∧ (∀ g : Channel, 127 < g.toNat →
      (build rom g g g).brush = { blue := romAt rom 15, green := romAt rom 15, red := romAt rom 15,
                                  intensity := ~~~romAt rom (intensityLevel g) })
    ∧ (build rom 0 0 0).brush = { blue := 0, green := 0, red := 0, intensity := 0 }
    ∧ (build rom 0 0 0).bidx = 0x0
    ∧ (build rom 255 255 255).brush = { blue := 0xFFFFFFFF, green := 0xFFFFFFFF, red := 0xFFFFFFFF,
                                        intensity := 0xFFFFFFFF }
    ∧ (build rom 255 255 255).bidx = 0xF

/-! ## The compositor (42_pixel_compositor.md) -/

/-- R161, R162: bit `p` of the pixel is bit `8*(y mod 4) + (x mod 4)` of plane `p`, never one of the replica's bits. -/
def Obligations.ComposeSelectsTheTileBit : Prop :=
  ∀ (brush : Planes Word) (x y : Coord) (p : Plane),
    (compose brush x y).getLsbD p.index = (brush.get p).getLsbD (8 * (y.toNat % 4) + x.toNat % 4)
      ∧ (8 * (y.toNat % 4) + x.toNat % 4) % 8 < 4 ∧ 8 * (y.toNat % 4) + x.toNat % 4 ≤ 27

/-- Over the 16 positions of the tile a plane's bit is set as often as the plane's tile density says: that of its level
for a chrominance plane, 16 less that of its level for the high branch's intensity plane, 0 for the low branch's (the
spec's own inference, at R175). -/
def Obligations.SampledCountIsTileDensity : Prop :=
  (∀ (brush : Planes Word) (p : Plane),
      ((List.range 4).flatMap fun y => (List.range 4).map fun x =>
          compose brush (BitVec.ofNat 16 x) (BitVec.ofNat 16 y)).countP (fun px => px.getLsbD p.index)
        = tileDensity (brush.get p))
    ∧ ∀ (table : Rom) (r g b : Channel),
      (127 < valueNat r g b →
        (build table r g b).brush.red = romAt table (highLevel (value r g b) r)
          ∧ (build table r g b).brush.green = romAt table (highLevel (value r g b) g)
          ∧ (build table r g b).brush.blue = romAt table (highLevel (value r g b) b)
          ∧ tileDensity (build table r g b).brush.intensity
              = 16 - tileDensity (romAt table (intensityLevel (value r g b))))
        ∧ (valueNat r g b ≤ 127 →
          (build table r g b).brush.red = romAt table (lowLevel r)
            ∧ (build table r g b).brush.green = romAt table (lowLevel g)
            ∧ (build table r g b).brush.blue = romAt table (lowLevel b)
            ∧ tileDensity (build table r g b).brush.intensity = 0)

/-- The pixel PLOT commits repeats with period 4 in each direction (the spec's own inference, at R176). -/
def Obligations.PlottedPixelIsPeriodic : Prop :=
  ∀ (s s' : State) (x y x' y' : Coord) (r g b : Channel) (i j : Nat),
    s.inputs.fbReady = true → s'.inputs.fbReady = true →
    x'.toNat = x.toNat + 4 * i → y'.toNat = y.toNat + 4 * j →
    ∃ (t t' : State) (q q' : FbRequest),
      exec (.plot x y r g b) s = .next t ∧ exec (.plot x' y' r g b) s' = .next t'
        ∧ t.writes = s.writes ++ [q] ∧ t'.writes = s'.writes ++ [q'] ∧ q.pixel = q'.pixel

/-- R164: the offset is exact, with no wrap, for every legal row pitch; and it is what a request carries. -/
def Obligations.OffsetNeverWraps : Prop :=
  (∀ (wBytes : Nat) (x y : Coord), wBytes ≤ 65535 →
      (fbOffset wBytes x y).toNat = y.toNat * wBytes + x.toNat / 8
        ∧ y.toNat * wBytes + x.toNat / 8 ≤ 4294844416)
    ∧ (fbOffset 65535 0xFFFF 0xFFFF).toNat = 4294844416
    ∧ ∀ (x y : Coord) (px : Pixel),
      (pixelRequest x y px).offset.toNat = y.toNat * params.wBytes + x.toNat / 8

/-- Pixels of one byte-group of a row share the offset (the spec's own inference from R164 and R59, at R177). The
sub-position is `x mod 8`, so they differ in it, and two of them four apart share the tile column (R163). -/
def Obligations.ByteGroupSharesOffset : Prop :=
  ∀ (x x' y : Coord) (px px' : Pixel), x.toNat / 8 = x'.toNat / 8 →
    (pixelRequest x y px).offset = (pixelRequest x' y px').offset
      ∧ (pixelRequest x y px).bit.toNat = x.toNat % 8
      ∧ (x ≠ x' → (pixelRequest x y px).bit ≠ (pixelRequest x' y px').bit)
      ∧ (x'.toNat = x.toNat + 4 → tileCoord x' = tileCoord x)

/-! ## The commands -/

/-- R145 with R132 to R135: BUILD of the high branch completes in every state, with these results and no others. -/
def Obligations.BuildHighBranchCompletes : Prop :=
  ∀ (s : State) (r g b : Channel), 127 < valueNat r g b →
    ∃ t : State, exec (.build r g b) s = .next t
      ∧ t.brush.blue = romAt rom (BitVec.ofNat 4 (b.toNat * 16 / (valueNat r g b + 8)))
      ∧ t.brush.green = romAt rom (BitVec.ofNat 4 (g.toNat * 16 / (valueNat r g b + 8)))
      ∧ t.brush.red = romAt rom (BitVec.ofNat 4 (r.toNat * 16 / (valueNat r g b + 8)))
      ∧ t.brush.intensity = ~~~romAt rom (BitVec.ofNat 4 (15 - (valueNat r g b - 128) / 8))
      ∧ t.bidx.toNat = 8 + 4 * (r.toNat / 128) + 2 * (g.toNat / 128) + b.toNat / 128
      ∧ t.status = { s.status with bvalid := true, high := true, err := false, ecode := 0, lastop := 0 }
      ∧ t.pix = s.pix ∧ t.rdata = s.rdata ∧ t.phase = .idle ∧ t.faults = s.faults
      ∧ s.sameFramebuffer t ∧ s.sameSurroundings t

/-- R145 with R136 to R138 and R122: BUILD of the low branch completes in every state, with these results and no
others. -/
def Obligations.BuildLowBranchCompletes : Prop :=
  ∀ (s : State) (r g b : Channel), valueNat r g b ≤ 127 →
    ∃ t : State, exec (.build r g b) s = .next t
      ∧ t.brush.blue = romAt rom (BitVec.ofNat 4 (b.toNat / 8))
      ∧ t.brush.green = romAt rom (BitVec.ofNat 4 (g.toNat / 8))
      ∧ t.brush.red = romAt rom (BitVec.ofNat 4 (r.toNat / 8))
      ∧ t.brush.intensity = 0x00000000
      ∧ t.bidx.toNat = (if (32 ≤ r.toNat ∧ r.toNat ≤ 63) ∧ (32 ≤ g.toNat ∧ g.toNat ≤ 63)
            ∧ (32 ≤ b.toNat ∧ b.toNat ≤ 63)
          then 8 else 4 * (r.toNat / 64) + 2 * (g.toNat / 64) + b.toNat / 64)
      ∧ t.status = { s.status with bvalid := true, high := false, err := false, ecode := 0, lastop := 0 }
      ∧ t.pix = s.pix ∧ t.rdata = s.rdata ∧ t.phase = .idle ∧ t.faults = s.faults
      ∧ s.sameFramebuffer t ∧ s.sameSurroundings t

/-- R169: SAMPLE with a valid brush completes: `PIX` has one bit of each plane, and nothing else changes but its
flags. -/
def Obligations.SampleCompositesTheLatchedBrush : Prop :=
  ∀ (s : State) (x y : Coord), s.status.bvalid = true →
    ∃ t : State, exec (.sample x y) s = .next t
      ∧ (∀ p : Plane, t.pix.getLsbD p.index = (s.brush.get p).getLsbD (8 * (y.toNat % 4) + x.toNat % 4))
      ∧ t.status = { s.status with pvalid := true, err := false, ecode := 0, lastop := 3 }
      ∧ t.brush = s.brush ∧ t.bidx = s.bidx ∧ t.rdata = s.rdata ∧ t.phase = .idle ∧ t.faults = s.faults
      ∧ s.sameFramebuffer t ∧ s.sameSurroundings t

/-- R214: SAMPLE without a valid brush is rejected with `NO_BRUSH`, and nothing else changes. -/
def Obligations.SampleWithoutBrushIsRejected : Prop :=
  ∀ (s : State) (x y : Coord), s.status.bvalid = false →
    exec (.sample x y) s =
      .next { s with status := { s.status with err := true, ecode := 3, lastop := 3 }, phase := .idle }

/-- R170: PLOT in the display area, the framebuffer ready and no other write at its offset, completes: it latches the
build, and stores the pixel composited from that build at the offset of the coordinate, one bit in each plane. Where
the bit stands in its byte is log entry 5; what counts as another write at the offset is log entry 10. -/
def Obligations.PlotCommitsTheDitheredPixel : Prop :=
  ∀ (s : State) (x y : Coord) (r g b : Channel),
    framebufferWf s.fb → s.inputs.fbReady = true → inDisplay x y →
    races s.inputs.other (fbOffset params.wBytes x y) = false →
    ∃ t : State, exec (.plot x y r g b) s = .next t
      ∧ s.plotLatched t 1 r g b (compose (build rom r g b).brush x y)
      ∧ pixelStored s.fb t.fb (fbOffset params.wBytes x y) (BitVec.ofNat 3 (x.toNat % 8))
          (compose (build rom r g b).brush x y)
      ∧ t.writes = s.writes ++ [{ offset := fbOffset params.wBytes x y, bit := BitVec.ofNat 3 (x.toNat % 8),
                                  pixel := compose (build rom r g b).brush x y, oob := false }]
      ∧ t.phase = .idle ∧ t.faults = s.faults ∧ s.sameSurroundings t

/-- R171: PLOTS under the same conditions completes and stores the best-match index. Log entries 5 and 10 as for PLOT.
-/
def Obligations.PlotsCommitsTheBestMatchIndex : Prop :=
  ∀ (s : State) (x y : Coord) (r g b : Channel),
    framebufferWf s.fb → s.inputs.fbReady = true → inDisplay x y →
    races s.inputs.other (fbOffset params.wBytes x y) = false →
    ∃ t : State, exec (.plots x y r g b) s = .next t
      ∧ s.plotLatched t 2 r g b (build rom r g b).bidx
      ∧ pixelStored s.fb t.fb (fbOffset params.wBytes x y) (BitVec.ofNat 3 (x.toNat % 8)) (build rom r g b).bidx
      ∧ t.writes = s.writes ++ [{ offset := fbOffset params.wBytes x y, bit := BitVec.ofNat 3 (x.toNat % 8),
                                  pixel := (build rom r g b).bidx, oob := false }]
      ∧ t.phase = .idle ∧ t.faults = s.faults ∧ s.sameSurroundings t

/-- R40, R51: where `fb_ready` is 0, PLOT and PLOTS latch their results and hold their request on the port in `FBWAIT`,
with nothing stored yet. `PRECOND_OOB` (R165) is recorded exactly for a pixel outside the display area; that it stands
recorded already here, on entering `FBWAIT`, is the model's choice, the spec does not say when (log entry 26). That the
wait is a state of its own is the model's choice (log entries 6 and 12); how the fault is recorded is log entry 7. -/
def Obligations.PlotWaitsForTheFramebuffer : Prop :=
  ∀ (s : State) (x y : Coord) (r g b : Channel), s.inputs.fbReady = false →
    (∃ t : State, exec (.plot x y r g b) s = .next t
        ∧ s.plotLatched t 1 r g b (compose (build rom r g b).brush x y)
        ∧ t.phase = .fbwait (pixelRequest x y (compose (build rom r g b).brush x y))
        ∧ s.boundsRecorded t x y ∧ t.faults.fbRace = s.faults.fbRace
        ∧ s.sameFramebuffer t ∧ s.sameSurroundings t)
      ∧ ∃ t : State, exec (.plots x y r g b) s = .next t
        ∧ s.plotLatched t 2 r g b (build rom r g b).bidx
        ∧ t.phase = .fbwait (pixelRequest x y (build rom r g b).bidx)
        ∧ s.boundsRecorded t x y ∧ t.faults.fbRace = s.faults.fbRace
        ∧ s.sameFramebuffer t ∧ s.sameSurroundings t

/-- R165: PLOT and PLOTS accept any coordinate: the registers take the values of the command's rule and the write is
issued as rules R163 and R164 say, in the display area or outside it; exactly the pixels outside it record
`PRECOND_OOB`. How and when the fault is recorded is the model's choice (log entries 7 and 26). -/
def Obligations.AnyCoordinateIsPlotted : Prop :=
  ∀ (s : State) (x y : Coord) (r g b : Channel), s.inputs.fbReady = true →
    (∃ (t : State) (q : FbRequest), exec (.plot x y r g b) s = .next t
        ∧ s.boundsRecorded t x y
        ∧ s.plotLatched t 1 r g b (compose (build rom r g b).brush x y)
        ∧ t.writes = s.writes ++ [q]
        ∧ q.offset.toNat = y.toNat * params.wBytes + x.toNat / 8 ∧ q.bit.toNat = x.toNat % 8
        ∧ q.pixel = compose (build rom r g b).brush x y ∧ (q.oob = true ↔ ¬ inDisplay x y)
        ∧ t.phase = .idle ∧ s.sameSurroundings t)
      ∧ ∃ (t : State) (q : FbRequest), exec (.plots x y r g b) s = .next t
        ∧ s.boundsRecorded t x y
        ∧ s.plotLatched t 2 r g b (build rom r g b).bidx
        ∧ t.writes = s.writes ++ [q]
        ∧ q.offset.toNat = y.toNat * params.wBytes + x.toNat / 8 ∧ q.bit.toNat = x.toNat % 8
        ∧ q.pixel = (build rom r g b).bidx ∧ (q.oob = true ↔ ¬ inDisplay x y)
        ∧ t.phase = .idle ∧ s.sameSurroundings t

/-- R193: ROMRD completes in every state: `RDATA` is the entry, and nothing else changes but its flags. Entry 0 reads
0x00000000 and entry 15 0xFFFFFFFF on every instance. -/
def Obligations.RomrdReadsTheEntry : Prop :=
  ∀ (s : State) (lvl : Level), ∃ t : State, exec (.romrd lvl) s = .next t
    ∧ t.rdata = romAt rom lvl
    ∧ (lvl = 0 → t.rdata = 0x00000000) ∧ (lvl = 15 → t.rdata = 0xFFFFFFFF)
    ∧ t.status = { s.status with rvalid := true, err := false, ecode := 0, lastop := 4 }
    ∧ t.brush = s.brush ∧ t.bidx = s.bidx ∧ t.pix = s.pix ∧ t.phase = .idle ∧ t.faults = s.faults
    ∧ s.sameFramebuffer t ∧ s.sameSurroundings t

/-- R21: the brush, the index and the branch are a function of the triple alone, whichever of BUILD, PLOT and PLOTS
builds them, at whatever coordinate and in whatever state; the pixel and the request of PLOT and of PLOTS are a function
of the command's coordinate and triple, committed at once or held on the port. -/
def Obligations.BuildsDependOnOperandsOnly : Prop :=
  (∀ (s s' : State) (x y : Coord) (r g b : Channel), ∃ t t₀ t₁ t₂ : State,
      exec (.build r g b) s = .next t ∧ exec (.build r g b) s' = .next t₀
        ∧ exec (.plot x y r g b) s' = .next t₁ ∧ exec (.plots x y r g b) s' = .next t₂
        ∧ t.sameBuild t₀ ∧ t.sameBuild t₁ ∧ t.sameBuild t₂)
    ∧ ∀ (s s' : State) (x y : Coord) (r g b : Channel),
      (∃ (t t' : State) (q : FbRequest), exec (.plot x y r g b) s = .next t ∧ exec (.plot x y r g b) s' = .next t'
          ∧ t.pix = t'.pix ∧ s.issues t q ∧ s'.issues t' q)
        ∧ ∃ (t t' : State) (q : FbRequest), exec (.plots x y r g b) s = .next t ∧ exec (.plots x y r g b) s' = .next t'
          ∧ t.pix = t'.pix ∧ s.issues t q ∧ s'.issues t' q

/-- R166: a PLOT or PLOTS issues exactly one write, at once or held in `FBWAIT`; no other command and no rejected word
issues any. -/
def Obligations.OneWritePerPlot : Prop :=
  (∀ (s t : State) (i : Instr), exec i s = .next t →
      match i with
      | .plot _ _ _ _ _ | .plots _ _ _ _ _ =>
        (∃ q : FbRequest, t.writes = s.writes ++ [q] ∧ t.phase = .idle ∧ s.inputs.fbReady = true)
          ∨ ∃ q : FbRequest, t.writes = s.writes ∧ t.fb = s.fb ∧ t.phase = .fbwait q ∧ s.inputs.fbReady = false
      | .build _ _ _ | .sample _ _ | .romrd _ => t.writes = s.writes ∧ t.fb = s.fb ∧ t.phase = .idle)
    ∧ ∀ (s t : State) (w : CommandWord), (∀ i : Instr, decode w ≠ .command i) → s.complete w = .next t →
      t.writes = s.writes ∧ t.fb = s.fb ∧ t.phase = .idle

/-! ## `STATUS`, rejections and the read port -/

/-- R31: the word of `STATUS`: each field at its place, bits 31:11 zero. -/
def Obligations.StatusWordLayout : Prop :=
  ∀ st : Status, st.pack.toNat =
    st.bvalid.toNat + 2 * st.high.toNat + 4 * st.err.toNat + 8 * st.ecode.toNat + 64 * st.lastop.toNat
      + 512 * st.pvalid.toNat + 1024 * st.rvalid.toNat

/-- R33, R211: every accepted word leaves its `OP` in `LASTOP`; `ERR` and `ECODE` say whether and why it was
rejected. -/
def Obligations.LastCommandIsReported : Prop :=
  ∀ (s : State) (w : CommandWord), ∃ t : State, s.complete w = .next t
    ∧ t.status.lastop.toNat = w.toNat % 8
    ∧ (t.status.err = true ↔ 5 ≤ w.toNat % 8 ∨ w.toNat / 8 % 32 ≠ 0 ∨ (w.toNat % 8 = 3 ∧ s.status.bvalid = false))
    ∧ (t.status.err = false → t.status.ecode = 0)
    ∧ (5 ≤ w.toNat % 8 → t.status.ecode = 1)
    ∧ (w.toNat % 8 < 5 → w.toNat / 8 % 32 ≠ 0 → t.status.ecode = 2)
    ∧ (w.toNat % 8 = 3 → w.toNat / 8 % 32 = 0 → s.status.bvalid = false → t.status.ecode = 3)

/-- R216: a rejected word changes `ERR`, `ECODE` and `LASTOP` and nothing else; the block returns to `IDLE`. -/
def Obligations.RejectionHasNoOtherEffect : Prop :=
  ∀ (s : State) (w : CommandWord),
    (decode w = .illegalOp → s.complete w = .next { s with
        status := { s.status with err := true, ecode := 1, lastop := BitVec.ofNat 3 (w.toNat % 8) }, phase := .idle })
      ∧ (decode w = .rsvNonzero → s.complete w = .next { s with
        status := { s.status with err := true, ecode := 2, lastop := BitVec.ofNat 3 (w.toNat % 8) }, phase := .idle })
      ∧ ∀ x y : Coord, decode w = .command (.sample x y) → s.status.bvalid = false → s.complete w = .next { s with
        status := { s.status with err := true, ecode := 3, lastop := BitVec.ofNat 3 (w.toNat % 8) }, phase := .idle }

/-- R217: any accepted word, legal or not, completes alike whatever the last command's report was: it overwrites
`ERR` and `ECODE`, and nothing of an error persists or blocks. -/
def Obligations.NoErrorStatePersists : Prop :=
  ∀ (s : State) (e : Bool) (c l : BitVec 3) (w : CommandWord),
    State.complete { s with status := { s.status with err := e, ecode := c, lastop := l } } w = s.complete w

/-- R191, R192: what the read port returns for each index while `phase` is `IDLE` and the index is valid. -/
def Obligations.ReadPortMap : Prop :=
  (∀ s : State, s.phase = .idle → s.inReset = false →
      s.readPort 0 = s.status.pack
        ∧ (s.status.bvalid = true → s.readPort 1 = s.brush.blue ∧ s.readPort 2 = s.brush.green
            ∧ s.readPort 3 = s.brush.red ∧ s.readPort 4 = s.brush.intensity
            ∧ (s.readPort 5).toNat = s.bidx.toNat)
        ∧ (s.status.pvalid = true → (s.readPort 6).toNat = s.pix.toNat)
        ∧ (s.status.rvalid = true → s.readPort 7 = s.rdata))
    ∧ (∀ (s : State) (rsel : BitVec 4), 8 ≤ rsel.toNat → s.readPort rsel = 0x00000000)
    ∧ ∀ s : State, (s.readPort 5).toNat < 16 ∧ (s.readPort 6).toNat < 16

/-- R194: a read of an index 0..7 outside `IDLE`, or of a register whose valid bit is 0, tells the host nothing, and nor
does one in reset (R241); every other read tells what the port returns. A read that tells nothing shows a free value in
the bits R192 leaves open (the model's choice, log entry 13). -/
def Obligations.UnspecifiedReadsTellNothing : Prop :=
  ∀ (s : State) (rsel : BitVec 4),
    (rsel.toNat < 8 → s.phase ≠ .idle → s.readKnown rsel = none)
      ∧ (rsel.toNat < 8 → s.inReset = true → s.readKnown rsel = none)
      ∧ (1 ≤ rsel.toNat → rsel.toNat ≤ 5 → s.status.bvalid = false → s.readKnown rsel = none)
      ∧ (rsel = 6 → s.status.pvalid = false → s.readKnown rsel = none)
      ∧ (rsel = 7 → s.status.rvalid = false → s.readKnown rsel = none)
      ∧ (8 ≤ rsel.toNat → s.readKnown rsel = some 0x00000000)
      ∧ (s.phase = .idle → s.inReset = false →
          (rsel = 0 → s.readKnown rsel = some s.status.pack)
            ∧ (s.status.bvalid = true → 1 ≤ rsel.toNat → rsel.toNat ≤ 5 →
                s.readKnown rsel = some (s.registerAt rsel))
            ∧ (s.status.pvalid = true → rsel = 6 → s.readKnown rsel = some (s.pix.setWidth 32))
            ∧ (s.status.rvalid = true → rsel = 7 → s.readKnown rsel = some s.rdata))
      ∧ (∀ w : Word, s.readKnown rsel = some w → s.readPort rsel = w)
      ∧ (s.readKnown rsel = none → ∀ i : Nat,
          (s.readPort rsel).getLsbD i =
            ((Config.freeRead s.tick rsel).getLsbD i && (decide (i < 4) || decide (rsel ≠ 5 ∧ rsel ≠ 6))))

/-! ## The framebuffer -/

/-- R52: a committed write puts one bit in each plane and changes no other bit. That pixel `x mod 8 = 0` is bit 7 is the
spec's own choice from general knowledge (log entry 5). -/
def Obligations.MergeStoresOnePixel : Prop :=
  ∀ (fb : Planes Memory) (offset : BitVec 32) (bit : BitVec 3) (pixel : Pixel), framebufferWf fb →
    pixelStored fb (fbMerge fb offset bit pixel) offset bit pixel

/-- Committing the same write twice leaves the framebuffer, as data, as committing it once (the spec's own inference
from R52, at R57; that equal framebuffers are equal data is the model's, log entry 3). -/
def Obligations.MergeIsIdempotent : Prop :=
  ∀ (fb : Planes Memory) (offset : BitVec 32) (bit : BitVec 3) (pixel : Pixel), framebufferWf fb →
    fbMerge (fbMerge fb offset bit pixel) offset bit pixel = fbMerge fb offset bit pixel

/-- The model's canonical form (log entry 3): two planes in it that read alike at every offset are the same data. -/
def Obligations.CanonicalPlanesAreEqual : Prop :=
  ∀ m m' : Memory, m.wf = true → m'.wf = true → (∀ a : Nat, m.read a = m'.read a) → m = m'

/-- R62, R218: a write of another writer that overlaps a commit at the same offset records `FB_RACE`, leaves the four
bytes there free, and leaves every other offset as the commit alone does. How the race is recorded and which free value
stands there is the model's choice (log entries 7 and 10). -/
def Obligations.OverlappingWritesRace : Prop :=
  ∀ (s : State) (req : FbRequest) (o : OtherWrite), framebufferWf s.fb →
    s.inputs.other = some o → o.overlaps = true → o.offset = req.offset →
    (s.commit req).faults.fbRace = true
      ∧ bytesAt (s.commit req).fb req.offset = Config.freeBytes s.tick
      ∧ (req.oob = false → ∀ (p : Plane) (a : BitVec 32), a ≠ req.offset →
        ((s.commit req).fb.get p).read a.toNat = (s.fb.get p).read a.toNat)

/-! ## The step -/

/-- A ready block whose host presents the word of a command runs that command in the step: the other writer's bytes
first, then the command's meaning, then the next inputs (`finish`); `withFetchWord` presents a table word so. The step
and the script are the model's choice (log entries 1, 6, 10, 24). -/
def Obligations.StepRunsTheDecodedCommand : Prop :=
  (∀ (s : State) (w : CommandWord) (i : Instr), s.accepts w → decode w = .command i →
      step s = finish true (exec i s.observeOther))
    ∧ ∀ (s : State) (nbits w : Nat) (i : Instr), decodeTableWord nbits w = some i →
      step (s.withFetchWord nbits w) = finish true (exec i (s.withFetchWord nbits w).observeOther)

/-- R86, R212, R213, R216: a ready block whose host presents a word that names no command rejects it in the step. The
step is the model's choice (log entries 1, 6, 10). -/
def Obligations.StepRejectsOtherWords : Prop :=
  ∀ (s : State) (w : CommandWord), s.accepts w →
    (5 ≤ w.toNat % 8 →
      step s = .next ((s.observeOther.reject .illegalOp (BitVec.ofNat 3 (w.toNat % 8))).advance true))
      ∧ (w.toNat % 8 < 5 → w.toNat / 8 % 32 ≠ 0 →
        step s = .next ((s.observeOther.reject .rsvNonzero (BitVec.ofNat 3 (w.toNat % 8))).advance true))

/-- R227: while `IDLE` with no command presented the block waits: no register, no flag and no byte changes. The other
writer's bytes are log entry 10, the next inputs log entry 1. -/
def Obligations.IdleBlockWaits : Prop :=
  ∀ s : State, s.cmdReady = true → s.inputs.cmdValid = false → s.unsettled = false → s.offered = none →
    step s = .next (s.observeOther.advance false)

/-- R51, R96, R248: a block in `FBWAIT` whose write is not taken accepts nothing: `cmd_ready` is 0, and after the step
the request and every register are as before, and the framebuffer holds what the other writer left. A step that waits,
with inputs still to come, is the model's choice (log entries 1 and 12). -/
def Obligations.WaitingRequestIsHeld : Prop :=
  ∀ (s : State) (q : FbRequest), s.phase = .fbwait q → s.boot = .running → s.inputs.rstN = true →
    s.inputs.fbReady = false → s.script ≠ [] →
    s.cmdReady = false ∧ s.fbValid = true ∧ s.fbPort = (q.offset, q.bit, q.pixel)
      ∧ ∃ t : State, step s = .next t ∧ t.phase = .fbwait q ∧ s.sameRegisters t ∧ t.writes = s.writes
        ∧ t.fb = s.observeOther.fb

/-- R51, R40, R165: a block in `FBWAIT` commits its request, in the display area or not, beside another writer or not, in
the step where `fb_ready` is 1, returns to `IDLE` and keeps every register; in the display area and with no overlapping
write at its offset, that stores the pixel and nothing else, after what the other writer of the step left. Log entries
5, 10, 12 and 18. -/
def Obligations.WaitingRequestIsCommitted : Prop :=
  ∀ (s : State) (q : FbRequest), s.phase = .fbwait q → s.boot = .running → s.inputs.rstN = true →
    s.inputs.fbReady = true →
    ∃ t : State, step s = .next t ∧ t.phase = .idle ∧ t.writes = s.writes ++ [q] ∧ s.sameRegisters t
      ∧ (framebufferWf s.fb → q.oob = false → races s.inputs.other q.offset = false →
        pixelStored s.observeOther.fb t.fb q.offset q.bit q.pixel)

/-- R41, R248: a step stops in one case only: in `FBWAIT` with `fb_ready` 0 and no further input, where the block is
stuck. Every other step has a next state. How the stuck state is told is the model's choice (log entry 12). -/
def Obligations.StepStopsOnlyWhenStuck : Prop :=
  ∀ s : State,
    ((∃ t : State, step s = .next t) ∨ step s = .fault .fbStuck)
      ∧ (step s = .fault .fbStuck ↔
        s.inputs.rstN = true ∧ s.boot = .running ∧ (∃ q : FbRequest, s.phase = .fbwait q)
          ∧ s.inputs.fbReady = false ∧ s.script = [])

/-- R11, R40, R41: a command that spends a step in `EXEC` ends with the registers, flags, phase, model faults and
committed writes of the same command completed in one step, and with its framebuffer unless it plots outside the display
area (where each run has free cells of its own, log entry 8). In `EXEC` the registers, the framebuffer, the committed
writes and the model faults are as before the acceptance: that an out-of-bounds word has no `PRECOND_OOB` recorded there
is the model's choice (log entry 26). While the latency still runs a block in `EXEC` stays there: `cmd_ready` and
`fb_valid` are 0, every register and the committed writes are as before, and the framebuffer holds what the other writer
left. That `EXEC` can be seen at all is the model's choice (log entry 6). -/
def Obligations.ExecPhaseRefinesTheTransaction : Prop :=
  (∀ (s : State) (w : CommandWord) (next : StepInput) (rest : List StepInput),
      s.accepts w → s.inputs.other = none → s.script = next :: rest →
      next.rstN = true → next.latencyOver = true → next.fbReady = s.inputs.fbReady → next.other = none →
      ∃ a m t : State,
        step s = .next a
          ∧ step { s with inputs := { s.inputs with latencyOver := false } } = .next m
          ∧ m.phase = .exec w ∧ m.cmdReady = false ∧ s.sameRegisters m
          ∧ m.fb = s.fb ∧ m.writes = s.writes ∧ m.faults = s.faults
          ∧ step m = .next t
          ∧ a.sameRegisters t ∧ t.phase = a.phase ∧ t.writes = a.writes ∧ t.faults = a.faults
          ∧ (wordInDisplay w → t.fb = a.fb))
    ∧ ∀ (s : State) (w : CommandWord), s.phase = .exec w → s.boot = .running → s.inputs.rstN = true →
      s.inputs.latencyOver = false →
      s.cmdReady = false ∧ s.fbValid = false
        ∧ ∃ t : State, step s = .next t ∧ t.phase = .exec w ∧ s.sameRegisters t ∧ t.fb = s.observeOther.fb
          ∧ t.writes = s.writes

/-! ## Reset and the model faults -/

/-- R36, R241: what the machine shows right after reset. That the block has just left reset is the model's choice (log
entry 25); the unreadable registers are log entries 2 and 13. -/
def Obligations.StateAfterReset : Prop :=
  State.reset.status.pack = 0x00000000 ∧ State.reset.phase = .idle ∧ State.reset.cmdReady = false
    ∧ State.reset.fbValid = false ∧ State.reset.readKnown 0 = some 0x00000000
    ∧ ∀ rsel : BitVec 4, 1 ≤ rsel.toNat → rsel.toNat ≤ 7 → State.reset.readKnown rsel = none

/-- R240 to R242: reset asserted in any phase leaves `STATUS` 0, `IDLE`, `cmd_ready` and `fb_valid` 0 and no index
0..7 readable; a command in `EXEC` is abandoned, and a write is withdrawn unless the framebuffer takes it at that very
edge, when it is committed whole or not at all. The free choice at the edge is log entry 11. -/
def Obligations.ResetFromAnyPhase : Prop :=
  ∀ s : State, s.inputs.rstN = false →
    ∃ t : State, step s = .next t ∧ t.status.pack = 0x00000000 ∧ t.phase = .idle ∧ t.cmdReady = false
      ∧ t.fbValid = false ∧ (∀ rsel : BitVec 4, rsel.toNat < 8 → t.readKnown rsel = none)
      ∧ (∀ rsel : BitVec 4, 8 ≤ rsel.toNat → t.readPort rsel = 0)
      ∧ ((t.writes = s.writes ∧ t.fb = s.observeOther.fb)
        ∨ ∃ q : FbRequest, s.phase = .fbwait q ∧ s.inputs.fbReady = true ∧ t.writes = s.writes ++ [q]
            ∧ t.fb = (s.observeOther.commit q).fb)

/-- R243: a block that has left reset accepts nothing until its reset latency has elapsed, whether its host waits or has
raised a word and keeps it up; then `cmd_ready` is 1 exactly in `IDLE` while reset is released. The latency is an input
of the step, the model's choice (log entry 6). -/
def Obligations.LeavingReset : Prop :=
  (∀ s : State, s.inputs.rstN = true → s.boot ≠ .running → s.protocolBroken = false →
      s.cmdReady = false ∧ step s = .next ({ s.observeOther with
        boot := if s.inputs.latencyOver then .running else .settling }.advance false))
    ∧ ∀ s : State, s.boot = .running → s.inputs.rstN = true → (s.cmdReady = true ↔ s.phase = .idle)

/-- R245: the step records `HOST_PROTOCOL` exactly when the host drops or changes a raised word before it is accepted,
or raises `cmd_valid` during reset. The word a step leaves pending is the one the host raised in it, and a block whose
`cmd_ready` is 0 leaves it pending. R91: the host of a listing never breaks the handshake:
it waits while `cmd_ready` is 0, and where it is 1 and no word is pending it does its next line. The record and the pending
word are the model's choice (log entry 9), and so is the step a read takes (log entry 27). -/
def Obligations.HostProtocolIsRecorded : Prop :=
  (∀ s t : State, step s = .next t →
      (t.faults.hostProtocol = true ↔
        s.faults.hostProtocol = true
          ∨ (s.inputs.rstN = true ∧ ∃ w : CommandWord, s.offered = some w
              ∧ ¬ (s.inputs.cmdValid = true ∧ s.inputs.cmdWord = w))
          ∨ (s.inputs.rstN = false ∧ s.inputs.cmdValid = true))
        ∧ (∀ w : CommandWord, t.offered = some w →
          s.inputs.rstN = true ∧ s.inputs.cmdValid = true ∧ s.inputs.cmdWord = w)
        ∧ (s.inputs.rstN = true → s.inputs.cmdValid = true → s.cmdReady = false →
          t.offered = some s.inputs.cmdWord))
    ∧ ∀ r r' : ListingRun, r.step = .next r' →
      r'.machine.faults.hostProtocol = r.machine.faults.hostProtocol
        ∧ (r.machine.cmdReady = false → r'.todo = r.todo ∧ r'.reads = r.reads)
        ∧ (r.machine.cmdReady = true → r.machine.offered = none → r'.todo = r.todo.tail)
        ∧ (∀ (w : CommandWord) (rest : List HostAction), r.todo = .send w :: rest →
            r.machine.cmdReady = true → r.machine.offered = none →
            r.machine.unsettled = false → r.machine.inputs.latencyOver = true →
            r.driven.accepts w ∧ step r.driven = .next r'.machine ∧ r'.reads = r.reads)
        ∧ ∀ (rsel : BitVec 4) (rest : List HostAction), r.todo = .read rsel :: rest →
            r.machine.cmdReady = true → r.machine.offered = none →
            r'.reads = r.reads ++ [(rsel, r.machine.readKnown rsel)]

/-- R218: a recorded model fault is never cleared by any step, a reset included. The record is the model's choice (log
entry 7). -/
def Obligations.ModelFaultsAreNeverCleared : Prop :=
  ∀ s t : State, step s = .next t → s.faults.le t.faults

/-- R59: a step commits at most one write, after all earlier ones; and a step that commits one leaves the block
`IDLE`. The list of committed writes is the model's own (log entry 16). -/
def Obligations.WritesLeaveInOrder : Prop :=
  ∀ s t : State, step s = .next t →
    t.writes = s.writes ∨ ∃ q : FbRequest, t.writes = s.writes ++ [q] ∧ t.phase = .idle

/-- The invariant: canonical planes, a consistent `STATUS`, a valid brush that is the build of some triple, a valid
`RDATA` that is a ROM entry, a request that carries `PIX`. Every step keeps it. The canonical form is log entry 3; the
mark on a request is log entry 8; that a waiting out-of-bounds request already has `PRECOND_OOB` recorded is the model's
choice (log entry 26), and that an open acceptance comes from a recorded violation is log entry 9. -/
def Obligations.StepKeepsTheInvariant : Prop :=
  ∀ s t : State, s.Inv → step s = .next t → t.Inv

/-- The invariant holds right after reset. -/
def Obligations.ResetMeetsTheInvariant : Prop :=
  State.reset.Inv
end

