-- ==== Sys2Proof/Laws/Decode.lean ====
section
/-! SUPPORT. Fields of a word as numbers, and the fields of a packed word. -/

namespace Sys2Proof

/-- An appended pair as a number. -/
theorem append_toNat {m n : Nat} (x : BitVec m) (y : BitVec n) : (x ++ y).toNat = x.toNat * 2 ^ n + y.toNat := by
  rw [BitVec.toNat_append, ← Nat.shiftLeft_add_eq_or_of_lt y.isLt, Nat.shiftLeft_eq]

/-- A field of a word as a number. -/
theorem extract_toNat {n : Nat} (w : BitVec n) (lo len : Nat) :
    (w.extractLsb' lo len).toNat = w.toNat / 2 ^ lo % 2 ^ len := by
  rw [BitVec.extractLsb'_toNat, Nat.shiftRight_eq_div_pow]

theorem fieldOp_toNat (w : CommandWord) : (fieldOp w).toNat = w.toNat % 8 := by
  rw [fieldOp, extract_toNat]
  omega

theorem fieldRsv_toNat (w : CommandWord) : (fieldRsv w).toNat = w.toNat / 8 % 32 := by
  rw [fieldRsv, extract_toNat]
  omega

theorem fieldRsv_eq_zero (w : CommandWord) : fieldRsv w = 0 ↔ w.toNat / 8 % 32 = 0 := by
  rw [← fieldRsv_toNat]
  exact ⟨fun h => by rw [h]; rfl, fun h => BitVec.eq_of_toNat_eq h⟩

section PackedFields

variable (y x : BitVec 16) (r g b : BitVec 8) (rsv : BitVec 5) (op : BitVec 3)

/-- A packed word as a number (30_encoding.md R80). -/
theorem packFields_toNat :
    (packFields y x r g b rsv op).toNat =
      y.toNat * 2 ^ 48 + x.toNat * 2 ^ 32 + r.toNat * 2 ^ 24 + g.toNat * 2 ^ 16 + b.toNat * 2 ^ 8
        + rsv.toNat * 2 ^ 3 + op.toNat := by
  unfold packFields
  simp only [append_toNat]
  omega

theorem fieldOp_packFields : fieldOp (packFields y x r g b rsv op) = op := by
  have h1 := op.isLt
  apply BitVec.eq_of_toNat_eq
  rw [fieldOp_toNat, packFields_toNat]
  omega

theorem fieldRsv_packFields : fieldRsv (packFields y x r g b rsv op) = rsv := by
  have h1 := op.isLt
  have h2 := rsv.isLt
  apply BitVec.eq_of_toNat_eq
  rw [fieldRsv_toNat, packFields_toNat]
  omega

theorem fieldBlue_packFields : fieldBlue (packFields y x r g b rsv op) = b := by
  have h1 := op.isLt
  have h2 := rsv.isLt
  have h3 := b.isLt
  apply BitVec.eq_of_toNat_eq
  rw [fieldBlue, extract_toNat, packFields_toNat]
  omega

theorem fieldGreen_packFields : fieldGreen (packFields y x r g b rsv op) = g := by
  have h1 := op.isLt
  have h2 := rsv.isLt
  have h3 := b.isLt
  have h4 := g.isLt
  apply BitVec.eq_of_toNat_eq
  rw [fieldGreen, extract_toNat, packFields_toNat]
  omega

theorem fieldRed_packFields : fieldRed (packFields y x r g b rsv op) = r := by
  have h1 := op.isLt
  have h2 := rsv.isLt
  have h3 := b.isLt
  have h4 := g.isLt
  have h5 := r.isLt
  apply BitVec.eq_of_toNat_eq
  rw [fieldRed, extract_toNat, packFields_toNat]
  omega

theorem fieldX_packFields : fieldX (packFields y x r g b rsv op) = x := by
  have h1 := op.isLt
  have h2 := rsv.isLt
  have h3 := b.isLt
  have h4 := g.isLt
  have h5 := r.isLt
  have h6 := x.isLt
  apply BitVec.eq_of_toNat_eq
  rw [fieldX, extract_toNat, packFields_toNat]
  omega

theorem fieldY_packFields : fieldY (packFields y x r g b rsv op) = y := by
  have h1 := op.isLt
  have h2 := rsv.isLt
  have h3 := b.isLt
  have h4 := g.isLt
  have h5 := r.isLt
  have h6 := x.isLt
  have h7 := y.isLt
  apply BitVec.eq_of_toNat_eq
  rw [fieldY, extract_toNat, packFields_toNat]
  omega

/-- `LVL` is the low nibble of the blue byte (30_encoding.md R84). -/
theorem fieldLevel_eq (w : CommandWord) : fieldLevel w = (fieldBlue w).extractLsb' 0 4 := by
  apply BitVec.eq_of_toNat_eq
  rw [fieldLevel, fieldBlue, extract_toNat, extract_toNat, extract_toNat]
  omega

end PackedFields

end Sys2Proof
end

