-- ==== Sys2Proof/Laws/Memory.lean ====
section
/-! SUPPORT. One plane of the framebuffer: what a write reads back as, that it keeps the canonical form, and that the
form makes planes with the same bytes equal. -/

namespace Sys2Proof.Machine

@[simp] theorem Memory.read_nil (a : Nat) : Memory.read [] a = Memory.unlisted := rfl

theorem Memory.read_cons (k : Nat) (v : Byte) (m : Memory) (a : Nat) :
    Memory.read ((k, v) :: m) a = if a = k then v else Memory.read m a := rfl

/-- The canonical form of a nonempty plane. -/
theorem Memory.wf_cons {k : Nat} {v : Byte} {m : Memory} :
    Memory.wf ((k, v) :: m) = true ↔
      k < 2 ^ 32 ∧ v ≠ Memory.unlisted ∧ (∀ c ∈ m, k < c.1) ∧ Memory.wf m = true := by
  simp [Memory.wf, and_assoc]

/-- Below every listed offset nothing is listed. -/
theorem Memory.read_below {m : Memory} {a : Nat} (h : ∀ c ∈ m, a < c.1) : Memory.read m a = Memory.unlisted := by
  induction m with
  | nil => rfl
  | cons c m ih =>
    obtain ⟨k, v⟩ := c
    have hk : a < k := h (k, v) (by simp)
    rw [Memory.read_cons, if_neg (by omega)]
    exact ih fun d hd => h d (by simp [hd])

theorem Memory.read_put (a : Nat) (b : Byte) (m : Memory) (h : Memory.read m a = Memory.unlisted) (c : Nat) :
    Memory.read (Memory.put a b m) c = if c = a then b else Memory.read m c := by
  unfold Memory.put
  split
  · next hb => split <;> simp_all
  · exact Memory.read_cons a b m c

/-- What a write does to every byte of a canonical plane. -/
theorem Memory.read_write {m : Memory} (hm : Memory.wf m = true) (a : Nat) (b : Byte) (c : Nat) :
    Memory.read (Memory.write m a b) c = if c = a then b else Memory.read m c := by
  induction m with
  | nil => exact Memory.read_put a b [] rfl c
  | cons d m ih =>
    obtain ⟨k, v⟩ := d
    obtain ⟨-, -, hlt, hwf⟩ := Memory.wf_cons.mp hm
    unfold Memory.write
    split
    · next hak =>
      refine Memory.read_put a b _ (Memory.read_below ?_) c
      intro d hd
      rcases List.mem_cons.mp hd with rfl | hd
      · exact hak
      · exact Nat.lt_trans hak (hlt d hd)
    · split
      · next hne heq =>
        subst heq
        rw [Memory.read_put a b m (Memory.read_below hlt) c, Memory.read_cons]
        split <;> rfl
      · next hak hne =>
        rw [Memory.read_cons, Memory.read_cons, ih hwf]
        split <;> split <;> first | rfl | omega

theorem Memory.mem_put {a : Nat} {b : Byte} {m : Memory} {c : Host.Cell} (h : c ∈ Memory.put a b m) :
    c.1 = a ∨ c ∈ m := by
  unfold Memory.put at h
  split at h
  · exact .inr h
  · rcases List.mem_cons.mp h with rfl | h
    · exact .inl rfl
    · exact .inr h

/-- A write lists no offset but its own anew. -/
theorem Memory.mem_write {m : Memory} {a : Nat} {b : Byte} {c : Host.Cell} (h : c ∈ Memory.write m a b) :
    c.1 = a ∨ c ∈ m := by
  induction m with
  | nil => exact Memory.mem_put h
  | cons d m ih =>
    obtain ⟨k, v⟩ := d
    unfold Memory.write at h
    split at h
    · exact Memory.mem_put h
    · split at h
      · rcases Memory.mem_put h with h | h
        · exact .inl h
        · exact .inr (by simp [h])
      · rcases List.mem_cons.mp h with rfl | h
        · exact .inr (by simp)
        · rcases ih h with h | h
          · exact .inl h
          · exact .inr (by simp [h])

theorem Memory.wf_put {a : Nat} {b : Byte} {m : Memory} (ha : a < 2 ^ 32) (hm : Memory.wf m = true)
    (h : ∀ c ∈ m, a < c.1) : Memory.wf (Memory.put a b m) = true := by
  unfold Memory.put
  split
  · exact hm
  · next hb => exact Memory.wf_cons.mpr ⟨ha, hb, h, hm⟩

/-- Every write keeps the canonical form. -/
theorem Memory.wf_write {m : Memory} (hm : Memory.wf m = true) {a : Nat} (ha : a < 2 ^ 32) (b : Byte) :
    Memory.wf (Memory.write m a b) = true := by
  induction m with
  | nil => exact Memory.wf_put ha rfl (by simp)
  | cons d m ih =>
    obtain ⟨k, v⟩ := d
    obtain ⟨hk, hv, hlt, hwf⟩ := Memory.wf_cons.mp hm
    unfold Memory.write
    split
    · next hak =>
      refine Memory.wf_put ha hm fun d hd => ?_
      rcases List.mem_cons.mp hd with rfl | hd
      · exact hak
      · exact Nat.lt_trans hak (hlt d hd)
    · split
      · next heq => exact Memory.wf_put ha hwf (heq ▸ hlt)
      · next hak hne =>
        refine Memory.wf_cons.mpr ⟨hk, hv, fun c hc => ?_, ih hwf⟩
        rcases Memory.mem_write hc with h | h
        · omega
        · exact hlt c h

end Sys2Proof.Machine
end

