-- ==== Sys2Proof/Laws/Framebuffer.lean ====
section
/-! SUPPORT. The four planes together: bytes put and read, the canonical form kept by everything that reaches the
framebuffer. -/

namespace Sys2Proof.Machine

@[simp] theorem planes_get_ofFn {α : Type} (f : Plane → α) (p : Plane) : (Planes.ofFn f).get p = f p := by
  cases p <;> rfl

@[simp] theorem bytesAt_get (fb : Planes Memory) (o : BitVec 32) (p : Plane) :
    (bytesAt fb o).get p = (fb.get p).read o.toNat := planes_get_ofFn _ p

/-- Bytes put at an offset are read back there. -/
theorem read_putBytes_same {fb : Planes Memory} (h : framebufferWf fb) (o : BitVec 32) (bs : Planes Byte)
    (p : Plane) : ((putBytes fb o bs).get p).read o.toNat = bs.get p := by
  simp [putBytes, Memory.read_write (h p)]

/-- Bytes put at an offset leave every other offset alone. -/
theorem read_putBytes_other {fb : Planes Memory} (h : framebufferWf fb) {o o' : BitVec 32} (hne : o' ≠ o)
    (bs : Planes Byte) (p : Plane) :
    ((putBytes fb o bs).get p).read o'.toNat = (fb.get p).read o'.toNat := by
  have hn : o'.toNat ≠ o.toNat := fun e => hne (BitVec.eq_of_toNat_eq e)
  simp [putBytes, Memory.read_write (h p), hn]

theorem wf_putBytes {fb : Planes Memory} (h : framebufferWf fb) (o : BitVec 32) (bs : Planes Byte) :
    framebufferWf (putBytes fb o bs) := by
  intro p
  simpa [putBytes] using Memory.wf_write (h p) o.isLt (bs.get p)

theorem wf_fbMerge {fb : Planes Memory} (h : framebufferWf fb) (o : BitVec 32) (bit : BitVec 3) (px : Pixel) :
    framebufferWf (fbMerge fb o bit px) :=
  wf_putBytes h o _

theorem wf_scramble (cells : List (BitVec 32 × Planes Byte)) :
    ∀ {fb : Planes Memory}, framebufferWf fb → framebufferWf (scramble fb cells) := by
  induction cells with
  | nil => exact fun h => h
  | cons c cs ih => exact fun h => ih (wf_putBytes h c.1 c.2)

/-- Whatever a committed write leaves, the planes stay canonical. -/
theorem wf_fbCommitted {s : State} (h : framebufferWf s.fb) (req : FbRequest) :
    framebufferWf (fbCommitted s req) := by
  unfold fbCommitted
  dsimp only
  have hafter : framebufferWf (if req.oob then scramble s.fb (Config.freeCells s.tick)
      else fbMerge s.fb req.offset req.bit req.pixel) := by
    split
    · exact wf_scramble _ h
    · exact wf_fbMerge h _ _ _
  split
  · exact wf_putBytes hafter _ _
  · exact hafter

/-- In bounds and without a race, a committed write is the merge of 20_memory.md R52 and nothing else. -/
theorem fbCommitted_plain {s : State} {req : FbRequest} (hoob : req.oob = false)
    (hrace : races s.inputs.other req.offset = false) :
    fbCommitted s req = fbMerge s.fb req.offset req.bit req.pixel := by
  simp [fbCommitted, hoob, hrace]

/-- A byte's bit after one of its bits is replaced. -/
theorem getLsbD_setBit (b : Byte) {pos : Nat} (hpos : pos < 8) (v : Bool) (j : Nat) :
    (setBit b pos v).getLsbD j = if j = pos then v else b.getLsbD j := by
  unfold setBit
  by_cases hj : j < 8
  · by_cases hjp : j = pos
    · subst hjp; cases v <;> simp [hpos]
    · rw [if_neg hjp]
      by_cases hlt : j < pos
      · cases v <;> simp [hj, hlt]
      · have hsub : j - pos ≠ 0 := by omega
        cases v <;> simp [hj, hlt, hsub]
  · have h1 : j ≠ pos := by omega
    rw [if_neg h1, BitVec.getLsbD_of_ge _ _ (by omega), BitVec.getLsbD_of_ge _ _ (by omega)]

theorem pixelPosition_lt (order : BitOrder) (bit : BitVec 3) : pixelPosition order bit < 8 := by
  have := bit.isLt
  cases order <;> simp only [pixelPosition] <;> omega

end Sys2Proof.Machine
end

