-- ==== Sys2Proof/Laws/Params.lean ====
section
/-! SUPPORT. The parameters of the instance are legal, whatever was chosen (00_scope.md R8). -/

namespace Sys2Proof.Machine

/-- The example configuration of 95_test_vectors.md is legal: the constraints can be met. -/
theorem exParams_legal : paramsLegal exParams = true := by decide

/-- The parameters the machine runs with are legal. -/
theorem params_legal : paramsLegal params = true := by
  unfold params
  split
  · assumption
  · exact exParams_legal

/-- What `paramsLegal` says of each parameter. -/
theorem paramsLegal_iff (p : Params) :
    paramsLegal p = true ↔
      romLegal p.romStrict p.ditherRom = true ∧ 1 ≤ p.wBytes ∧ p.wBytes ≤ 65535 ∧ 1 ≤ p.widthPx
        ∧ p.widthPx ≤ 65536 ∧ p.widthPx ≤ 8 * p.wBytes ∧ 1 ≤ p.heightPx ∧ p.heightPx ≤ 65536
        ∧ 1 ≤ p.cmdLatency := by
  simp [paramsLegal, and_assoc]

theorem rom_legal : romLegal params.romStrict rom = true :=
  ((paramsLegal_iff params).mp params_legal).1

theorem wBytes_le : params.wBytes ≤ 65535 :=
  ((paramsLegal_iff params).mp params_legal).2.2.1

theorem widthPx_pos : 1 ≤ params.widthPx :=
  ((paramsLegal_iff params).mp params_legal).2.2.2.1

theorem widthPx_le : params.widthPx ≤ 65536 :=
  ((paramsLegal_iff params).mp params_legal).2.2.2.2.1

theorem heightPx_pos : 1 ≤ params.heightPx :=
  ((paramsLegal_iff params).mp params_legal).2.2.2.2.2.2.1

/-- What `romLegal` says of a table, level by level (40_tables.md R111, R112, R114 to R116). -/
theorem romLegal_iff (strict : Bool) (table : Rom) :
    romLegal strict table = true ↔
      table.get 0 = 0x00000000 ∧ table.get 15 = 0xFFFFFFFF
        ∧ (∀ i : Fin 15, tileDensity (table.get i.castSucc) ≤ tileDensity (table.get i.succ))
        ∧ (∀ i : Fin 16, replicated (table.get i) = true)
        ∧ (strict = true → ∀ i : Fin 15, tileDensity (table.get i.castSucc) < tileDensity (table.get i.succ)) := by
  cases strict <;> simp [romLegal, and_assoc, List.all_eq_true]

/-- In a legal table a higher level is at least as dense. -/
theorem romLegal_mono {strict : Bool} {table : Rom} (h : romLegal strict table = true) (i : Level) :
    ∀ j : Level, i.toNat ≤ j.toNat → tileDensity (romAt table i) ≤ tileDensity (romAt table j) := by
  have hstep := ((romLegal_iff strict table).mp h).2.2.1
  suffices hnat : ∀ (n : Nat) (a b : Fin 16), a.val + n = b.val →
      tileDensity (table.get a) ≤ tileDensity (table.get b) by
    intro j hij
    exact hnat (j.toNat - i.toNat) i.toFin j.toFin (by simp; omega)
  intro n
  induction n with
  | zero =>
    intro a b hab
    rw [Fin.ext (by simpa using hab) (a := a) (b := b)]
  | succ n ih =>
    intro a b hab
    have hb : b.val ≤ 15 := by omega
    refine Nat.le_trans (ih a ⟨b.val - 1, by omega⟩ (by simp; omega)) ?_
    have h1 := hstep ⟨b.val - 1, by omega⟩
    have h2 : (⟨b.val - 1, by omega⟩ : Fin 15).succ = b := Fin.ext (by simp; omega)
    rw [h2] at h1
    exact h1

end Sys2Proof.Machine
end

