-- ==== Sys2Proof/Laws/State.lean ====
section
/-! SUPPORT. One lemma per field per update of `State` and `Status`, so that no proof unfolds a record update. -/

namespace Sys2Proof.Machine

/-! ## `Status.succeeded` -/

@[simp] theorem Status.succeeded_bvalid (st : Status) (op : BitVec 3) : (st.succeeded op).bvalid = st.bvalid := rfl
@[simp] theorem Status.succeeded_high (st : Status) (op : BitVec 3) : (st.succeeded op).high = st.high := rfl
@[simp] theorem Status.succeeded_err (st : Status) (op : BitVec 3) : (st.succeeded op).err = false := rfl
@[simp] theorem Status.succeeded_ecode (st : Status) (op : BitVec 3) : (st.succeeded op).ecode = 0 := rfl
@[simp] theorem Status.succeeded_lastop (st : Status) (op : BitVec 3) : (st.succeeded op).lastop = op := rfl
@[simp] theorem Status.succeeded_pvalid (st : Status) (op : BitVec 3) : (st.succeeded op).pvalid = st.pvalid := rfl
@[simp] theorem Status.succeeded_rvalid (st : Status) (op : BitVec 3) : (st.succeeded op).rvalid = st.rvalid := rfl

/-! ## `Status.rejected` -/

@[simp] theorem Status.rejected_bvalid (st : Status) (e : ErrorCode) (op : BitVec 3) :
    (st.rejected e op).bvalid = st.bvalid := rfl
@[simp] theorem Status.rejected_high (st : Status) (e : ErrorCode) (op : BitVec 3) :
    (st.rejected e op).high = st.high := rfl
@[simp] theorem Status.rejected_err (st : Status) (e : ErrorCode) (op : BitVec 3) :
    (st.rejected e op).err = true := rfl
@[simp] theorem Status.rejected_ecode (st : Status) (e : ErrorCode) (op : BitVec 3) :
    (st.rejected e op).ecode = e.bits := rfl
@[simp] theorem Status.rejected_lastop (st : Status) (e : ErrorCode) (op : BitVec 3) :
    (st.rejected e op).lastop = op := rfl
@[simp] theorem Status.rejected_pvalid (st : Status) (e : ErrorCode) (op : BitVec 3) :
    (st.rejected e op).pvalid = st.pvalid := rfl
@[simp] theorem Status.rejected_rvalid (st : Status) (e : ErrorCode) (op : BitVec 3) :
    (st.rejected e op).rvalid = st.rvalid := rfl

/-! ## `Status.built` -/

@[simp] theorem Status.built_bvalid (st : Status) (high : Bool) : (st.built high).bvalid = true := rfl
@[simp] theorem Status.built_high (st : Status) (high : Bool) : (st.built high).high = high := rfl
@[simp] theorem Status.built_err (st : Status) (high : Bool) : (st.built high).err = st.err := rfl
@[simp] theorem Status.built_ecode (st : Status) (high : Bool) : (st.built high).ecode = st.ecode := rfl
@[simp] theorem Status.built_lastop (st : Status) (high : Bool) : (st.built high).lastop = st.lastop := rfl
@[simp] theorem Status.built_pvalid (st : Status) (high : Bool) : (st.built high).pvalid = st.pvalid := rfl
@[simp] theorem Status.built_rvalid (st : Status) (high : Bool) : (st.built high).rvalid = st.rvalid := rfl

/-! ## `Status.pixelLatched` -/

@[simp] theorem Status.pixelLatched_bvalid (st : Status) : st.pixelLatched.bvalid = st.bvalid := rfl
@[simp] theorem Status.pixelLatched_high (st : Status) : st.pixelLatched.high = st.high := rfl
@[simp] theorem Status.pixelLatched_err (st : Status) : st.pixelLatched.err = st.err := rfl
@[simp] theorem Status.pixelLatched_ecode (st : Status) : st.pixelLatched.ecode = st.ecode := rfl
@[simp] theorem Status.pixelLatched_lastop (st : Status) : st.pixelLatched.lastop = st.lastop := rfl
@[simp] theorem Status.pixelLatched_pvalid (st : Status) : st.pixelLatched.pvalid = true := rfl
@[simp] theorem Status.pixelLatched_rvalid (st : Status) : st.pixelLatched.rvalid = st.rvalid := rfl

/-! ## `Status.romRead` -/

@[simp] theorem Status.romRead_bvalid (st : Status) : st.romRead.bvalid = st.bvalid := rfl
@[simp] theorem Status.romRead_high (st : Status) : st.romRead.high = st.high := rfl
@[simp] theorem Status.romRead_err (st : Status) : st.romRead.err = st.err := rfl
@[simp] theorem Status.romRead_ecode (st : Status) : st.romRead.ecode = st.ecode := rfl
@[simp] theorem Status.romRead_lastop (st : Status) : st.romRead.lastop = st.lastop := rfl
@[simp] theorem Status.romRead_pvalid (st : Status) : st.romRead.pvalid = st.pvalid := rfl
@[simp] theorem Status.romRead_rvalid (st : Status) : st.romRead.rvalid = true := rfl

/-! ## `State.commit` -/

@[simp] theorem State.commit_brush (s : State) (req : FbRequest) : (s.commit req).brush = s.brush := rfl
@[simp] theorem State.commit_bidx (s : State) (req : FbRequest) : (s.commit req).bidx = s.bidx := rfl
@[simp] theorem State.commit_pix (s : State) (req : FbRequest) : (s.commit req).pix = s.pix := rfl
@[simp] theorem State.commit_rdata (s : State) (req : FbRequest) : (s.commit req).rdata = s.rdata := rfl
@[simp] theorem State.commit_status (s : State) (req : FbRequest) : (s.commit req).status = s.status := rfl
@[simp] theorem State.commit_phase (s : State) (req : FbRequest) : (s.commit req).phase = .idle := rfl
@[simp] theorem State.commit_boot (s : State) (req : FbRequest) : (s.commit req).boot = s.boot := rfl
@[simp] theorem State.commit_fb (s : State) (req : FbRequest) : (s.commit req).fb = fbCommitted s req := rfl
@[simp] theorem State.commit_inputs (s : State) (req : FbRequest) : (s.commit req).inputs = s.inputs := rfl
@[simp] theorem State.commit_script (s : State) (req : FbRequest) : (s.commit req).script = s.script := rfl
@[simp] theorem State.commit_offered (s : State) (req : FbRequest) : (s.commit req).offered = s.offered := rfl
@[simp] theorem State.commit_unsettled (s : State) (req : FbRequest) : (s.commit req).unsettled = s.unsettled := rfl
@[simp] theorem State.commit_faults (s : State) (req : FbRequest) :
    (s.commit req).faults = { s.faults with fbRace := s.faults.fbRace || races s.inputs.other req.offset } := rfl
@[simp] theorem State.commit_writes (s : State) (req : FbRequest) : (s.commit req).writes = s.writes ++ [req] := rfl
@[simp] theorem State.commit_tick (s : State) (req : FbRequest) : (s.commit req).tick = s.tick := rfl

/-! ## `State.latchBuild` -/

@[simp] theorem State.latchBuild_brush (s : State) (b : Built) : (s.latchBuild b).brush = b.brush := rfl
@[simp] theorem State.latchBuild_bidx (s : State) (b : Built) : (s.latchBuild b).bidx = b.bidx := rfl
@[simp] theorem State.latchBuild_pix (s : State) (b : Built) : (s.latchBuild b).pix = s.pix := rfl
@[simp] theorem State.latchBuild_rdata (s : State) (b : Built) : (s.latchBuild b).rdata = s.rdata := rfl
@[simp] theorem State.latchBuild_status (s : State) (b : Built) :
    (s.latchBuild b).status = s.status.built b.high := rfl
@[simp] theorem State.latchBuild_phase (s : State) (b : Built) : (s.latchBuild b).phase = s.phase := rfl
@[simp] theorem State.latchBuild_boot (s : State) (b : Built) : (s.latchBuild b).boot = s.boot := rfl
@[simp] theorem State.latchBuild_fb (s : State) (b : Built) : (s.latchBuild b).fb = s.fb := rfl
@[simp] theorem State.latchBuild_inputs (s : State) (b : Built) : (s.latchBuild b).inputs = s.inputs := rfl
@[simp] theorem State.latchBuild_script (s : State) (b : Built) : (s.latchBuild b).script = s.script := rfl
@[simp] theorem State.latchBuild_offered (s : State) (b : Built) : (s.latchBuild b).offered = s.offered := rfl
@[simp] theorem State.latchBuild_unsettled (s : State) (b : Built) : (s.latchBuild b).unsettled = s.unsettled := rfl
@[simp] theorem State.latchBuild_faults (s : State) (b : Built) : (s.latchBuild b).faults = s.faults := rfl
@[simp] theorem State.latchBuild_writes (s : State) (b : Built) : (s.latchBuild b).writes = s.writes := rfl
@[simp] theorem State.latchBuild_tick (s : State) (b : Built) : (s.latchBuild b).tick = s.tick := rfl

/-! ## `State.latchPixel` -/

@[simp] theorem State.latchPixel_brush (s : State) (p : Pixel) : (s.latchPixel p).brush = s.brush := rfl
@[simp] theorem State.latchPixel_bidx (s : State) (p : Pixel) : (s.latchPixel p).bidx = s.bidx := rfl
@[simp] theorem State.latchPixel_pix (s : State) (p : Pixel) : (s.latchPixel p).pix = p := rfl
@[simp] theorem State.latchPixel_rdata (s : State) (p : Pixel) : (s.latchPixel p).rdata = s.rdata := rfl
@[simp] theorem State.latchPixel_status (s : State) (p : Pixel) :
    (s.latchPixel p).status = s.status.pixelLatched := rfl
@[simp] theorem State.latchPixel_phase (s : State) (p : Pixel) : (s.latchPixel p).phase = s.phase := rfl
@[simp] theorem State.latchPixel_boot (s : State) (p : Pixel) : (s.latchPixel p).boot = s.boot := rfl
@[simp] theorem State.latchPixel_fb (s : State) (p : Pixel) : (s.latchPixel p).fb = s.fb := rfl
@[simp] theorem State.latchPixel_inputs (s : State) (p : Pixel) : (s.latchPixel p).inputs = s.inputs := rfl
@[simp] theorem State.latchPixel_script (s : State) (p : Pixel) : (s.latchPixel p).script = s.script := rfl
@[simp] theorem State.latchPixel_offered (s : State) (p : Pixel) : (s.latchPixel p).offered = s.offered := rfl
@[simp] theorem State.latchPixel_unsettled (s : State) (p : Pixel) : (s.latchPixel p).unsettled = s.unsettled := rfl
@[simp] theorem State.latchPixel_faults (s : State) (p : Pixel) : (s.latchPixel p).faults = s.faults := rfl
@[simp] theorem State.latchPixel_writes (s : State) (p : Pixel) : (s.latchPixel p).writes = s.writes := rfl
@[simp] theorem State.latchPixel_tick (s : State) (p : Pixel) : (s.latchPixel p).tick = s.tick := rfl

/-! ## `State.latchRom` -/

@[simp] theorem State.latchRom_brush (s : State) (w : Word) : (s.latchRom w).brush = s.brush := rfl
@[simp] theorem State.latchRom_bidx (s : State) (w : Word) : (s.latchRom w).bidx = s.bidx := rfl
@[simp] theorem State.latchRom_pix (s : State) (w : Word) : (s.latchRom w).pix = s.pix := rfl
@[simp] theorem State.latchRom_rdata (s : State) (w : Word) : (s.latchRom w).rdata = w := rfl
@[simp] theorem State.latchRom_status (s : State) (w : Word) : (s.latchRom w).status = s.status.romRead := rfl
@[simp] theorem State.latchRom_phase (s : State) (w : Word) : (s.latchRom w).phase = s.phase := rfl
@[simp] theorem State.latchRom_boot (s : State) (w : Word) : (s.latchRom w).boot = s.boot := rfl
@[simp] theorem State.latchRom_fb (s : State) (w : Word) : (s.latchRom w).fb = s.fb := rfl
@[simp] theorem State.latchRom_inputs (s : State) (w : Word) : (s.latchRom w).inputs = s.inputs := rfl
@[simp] theorem State.latchRom_script (s : State) (w : Word) : (s.latchRom w).script = s.script := rfl
@[simp] theorem State.latchRom_offered (s : State) (w : Word) : (s.latchRom w).offered = s.offered := rfl
@[simp] theorem State.latchRom_unsettled (s : State) (w : Word) : (s.latchRom w).unsettled = s.unsettled := rfl
@[simp] theorem State.latchRom_faults (s : State) (w : Word) : (s.latchRom w).faults = s.faults := rfl
@[simp] theorem State.latchRom_writes (s : State) (w : Word) : (s.latchRom w).writes = s.writes := rfl
@[simp] theorem State.latchRom_tick (s : State) (w : Word) : (s.latchRom w).tick = s.tick := rfl

/-! ## `State.succeed` -/

@[simp] theorem State.succeed_brush (s : State) (op : BitVec 3) : (s.succeed op).brush = s.brush := rfl
@[simp] theorem State.succeed_bidx (s : State) (op : BitVec 3) : (s.succeed op).bidx = s.bidx := rfl
@[simp] theorem State.succeed_pix (s : State) (op : BitVec 3) : (s.succeed op).pix = s.pix := rfl
@[simp] theorem State.succeed_rdata (s : State) (op : BitVec 3) : (s.succeed op).rdata = s.rdata := rfl
@[simp] theorem State.succeed_status (s : State) (op : BitVec 3) :
    (s.succeed op).status = s.status.succeeded op := rfl
@[simp] theorem State.succeed_phase (s : State) (op : BitVec 3) : (s.succeed op).phase = .idle := rfl
@[simp] theorem State.succeed_boot (s : State) (op : BitVec 3) : (s.succeed op).boot = s.boot := rfl
@[simp] theorem State.succeed_fb (s : State) (op : BitVec 3) : (s.succeed op).fb = s.fb := rfl
@[simp] theorem State.succeed_inputs (s : State) (op : BitVec 3) : (s.succeed op).inputs = s.inputs := rfl
@[simp] theorem State.succeed_script (s : State) (op : BitVec 3) : (s.succeed op).script = s.script := rfl
@[simp] theorem State.succeed_offered (s : State) (op : BitVec 3) : (s.succeed op).offered = s.offered := rfl
@[simp] theorem State.succeed_unsettled (s : State) (op : BitVec 3) : (s.succeed op).unsettled = s.unsettled := rfl
@[simp] theorem State.succeed_faults (s : State) (op : BitVec 3) : (s.succeed op).faults = s.faults := rfl
@[simp] theorem State.succeed_writes (s : State) (op : BitVec 3) : (s.succeed op).writes = s.writes := rfl
@[simp] theorem State.succeed_tick (s : State) (op : BitVec 3) : (s.succeed op).tick = s.tick := rfl

/-! ## `State.reject` -/

@[simp] theorem State.reject_brush (s : State) (e : ErrorCode) (op : BitVec 3) :
    (s.reject e op).brush = s.brush := rfl
@[simp] theorem State.reject_bidx (s : State) (e : ErrorCode) (op : BitVec 3) : (s.reject e op).bidx = s.bidx := rfl
@[simp] theorem State.reject_pix (s : State) (e : ErrorCode) (op : BitVec 3) : (s.reject e op).pix = s.pix := rfl
@[simp] theorem State.reject_rdata (s : State) (e : ErrorCode) (op : BitVec 3) :
    (s.reject e op).rdata = s.rdata := rfl
@[simp] theorem State.reject_status (s : State) (e : ErrorCode) (op : BitVec 3) :
    (s.reject e op).status = s.status.rejected e op := rfl
@[simp] theorem State.reject_phase (s : State) (e : ErrorCode) (op : BitVec 3) : (s.reject e op).phase = .idle := rfl
@[simp] theorem State.reject_boot (s : State) (e : ErrorCode) (op : BitVec 3) : (s.reject e op).boot = s.boot := rfl
@[simp] theorem State.reject_fb (s : State) (e : ErrorCode) (op : BitVec 3) : (s.reject e op).fb = s.fb := rfl
@[simp] theorem State.reject_inputs (s : State) (e : ErrorCode) (op : BitVec 3) :
    (s.reject e op).inputs = s.inputs := rfl
@[simp] theorem State.reject_script (s : State) (e : ErrorCode) (op : BitVec 3) :
    (s.reject e op).script = s.script := rfl
@[simp] theorem State.reject_offered (s : State) (e : ErrorCode) (op : BitVec 3) :
    (s.reject e op).offered = s.offered := rfl
@[simp] theorem State.reject_unsettled (s : State) (e : ErrorCode) (op : BitVec 3) :
    (s.reject e op).unsettled = s.unsettled := rfl
@[simp] theorem State.reject_faults (s : State) (e : ErrorCode) (op : BitVec 3) :
    (s.reject e op).faults = s.faults := rfl
@[simp] theorem State.reject_writes (s : State) (e : ErrorCode) (op : BitVec 3) :
    (s.reject e op).writes = s.writes := rfl
@[simp] theorem State.reject_tick (s : State) (e : ErrorCode) (op : BitVec 3) : (s.reject e op).tick = s.tick := rfl

/-! ## `State.recordBounds` -/

@[simp] theorem State.recordBounds_brush (s : State) (req : FbRequest) : (s.recordBounds req).brush = s.brush := rfl
@[simp] theorem State.recordBounds_bidx (s : State) (req : FbRequest) : (s.recordBounds req).bidx = s.bidx := rfl
@[simp] theorem State.recordBounds_pix (s : State) (req : FbRequest) : (s.recordBounds req).pix = s.pix := rfl
@[simp] theorem State.recordBounds_rdata (s : State) (req : FbRequest) : (s.recordBounds req).rdata = s.rdata := rfl
@[simp] theorem State.recordBounds_status (s : State) (req : FbRequest) :
    (s.recordBounds req).status = s.status := rfl
@[simp] theorem State.recordBounds_phase (s : State) (req : FbRequest) : (s.recordBounds req).phase = s.phase := rfl
@[simp] theorem State.recordBounds_boot (s : State) (req : FbRequest) : (s.recordBounds req).boot = s.boot := rfl
@[simp] theorem State.recordBounds_fb (s : State) (req : FbRequest) : (s.recordBounds req).fb = s.fb := rfl
@[simp] theorem State.recordBounds_inputs (s : State) (req : FbRequest) :
    (s.recordBounds req).inputs = s.inputs := rfl
@[simp] theorem State.recordBounds_script (s : State) (req : FbRequest) :
    (s.recordBounds req).script = s.script := rfl
@[simp] theorem State.recordBounds_offered (s : State) (req : FbRequest) :
    (s.recordBounds req).offered = s.offered := rfl
@[simp] theorem State.recordBounds_unsettled (s : State) (req : FbRequest) :
    (s.recordBounds req).unsettled = s.unsettled := rfl
@[simp] theorem State.recordBounds_faults (s : State) (req : FbRequest) :
    (s.recordBounds req).faults = { s.faults with precondOob := s.faults.precondOob || req.oob } := rfl
@[simp] theorem State.recordBounds_writes (s : State) (req : FbRequest) :
    (s.recordBounds req).writes = s.writes := rfl
@[simp] theorem State.recordBounds_tick (s : State) (req : FbRequest) : (s.recordBounds req).tick = s.tick := rfl

/-! ## `State.noteProtocol` -/

@[simp] theorem State.noteProtocol_brush (s : State) : s.noteProtocol.brush = s.brush := rfl
@[simp] theorem State.noteProtocol_bidx (s : State) : s.noteProtocol.bidx = s.bidx := rfl
@[simp] theorem State.noteProtocol_pix (s : State) : s.noteProtocol.pix = s.pix := rfl
@[simp] theorem State.noteProtocol_rdata (s : State) : s.noteProtocol.rdata = s.rdata := rfl
@[simp] theorem State.noteProtocol_status (s : State) : s.noteProtocol.status = s.status := rfl
@[simp] theorem State.noteProtocol_phase (s : State) : s.noteProtocol.phase = s.phase := rfl
@[simp] theorem State.noteProtocol_boot (s : State) : s.noteProtocol.boot = s.boot := rfl
@[simp] theorem State.noteProtocol_fb (s : State) : s.noteProtocol.fb = s.fb := rfl
@[simp] theorem State.noteProtocol_inputs (s : State) : s.noteProtocol.inputs = s.inputs := rfl
@[simp] theorem State.noteProtocol_script (s : State) : s.noteProtocol.script = s.script := rfl
@[simp] theorem State.noteProtocol_offered (s : State) : s.noteProtocol.offered = s.offered := rfl
@[simp] theorem State.noteProtocol_unsettled (s : State) :
    s.noteProtocol.unsettled = (s.unsettled || s.protocolBroken) := rfl
@[simp] theorem State.noteProtocol_faults (s : State) :
    s.noteProtocol.faults = { s.faults with hostProtocol := s.faults.hostProtocol || s.protocolBroken } := rfl
@[simp] theorem State.noteProtocol_writes (s : State) : s.noteProtocol.writes = s.writes := rfl
@[simp] theorem State.noteProtocol_tick (s : State) : s.noteProtocol.tick = s.tick := rfl

/-! ## `State.clear` -/

@[simp] theorem State.clear_brush (s : State) : s.clear.brush = freeBrush (s.tick + 1) := rfl
@[simp] theorem State.clear_bidx (s : State) : s.clear.bidx = (Config.freeWord (s.tick + 1) 4).setWidth 4 := rfl
@[simp] theorem State.clear_pix (s : State) : s.clear.pix = (Config.freeWord (s.tick + 1) 5).setWidth 4 := rfl
@[simp] theorem State.clear_rdata (s : State) : s.clear.rdata = Config.freeWord (s.tick + 1) 6 := rfl
@[simp] theorem State.clear_status (s : State) : s.clear.status = Status.reset := rfl
@[simp] theorem State.clear_phase (s : State) : s.clear.phase = .idle := rfl
@[simp] theorem State.clear_boot (s : State) : s.clear.boot = .held := rfl
@[simp] theorem State.clear_fb (s : State) : s.clear.fb = s.fb := rfl
@[simp] theorem State.clear_inputs (s : State) : s.clear.inputs = s.inputs := rfl
@[simp] theorem State.clear_script (s : State) : s.clear.script = s.script := rfl
@[simp] theorem State.clear_offered (s : State) : s.clear.offered = s.offered := rfl
@[simp] theorem State.clear_unsettled (s : State) : s.clear.unsettled = s.unsettled := rfl
@[simp] theorem State.clear_faults (s : State) : s.clear.faults = s.faults := rfl
@[simp] theorem State.clear_writes (s : State) : s.clear.writes = s.writes := rfl
@[simp] theorem State.clear_tick (s : State) : s.clear.tick = s.tick := rfl

/-! ## `State.advance` -/

@[simp] theorem State.advance_brush (s : State) (acc : Bool) : (s.advance acc).brush = s.brush := rfl
@[simp] theorem State.advance_bidx (s : State) (acc : Bool) : (s.advance acc).bidx = s.bidx := rfl
@[simp] theorem State.advance_pix (s : State) (acc : Bool) : (s.advance acc).pix = s.pix := rfl
@[simp] theorem State.advance_rdata (s : State) (acc : Bool) : (s.advance acc).rdata = s.rdata := rfl
@[simp] theorem State.advance_status (s : State) (acc : Bool) : (s.advance acc).status = s.status := rfl
@[simp] theorem State.advance_phase (s : State) (acc : Bool) : (s.advance acc).phase = s.phase := rfl
@[simp] theorem State.advance_boot (s : State) (acc : Bool) : (s.advance acc).boot = s.boot := rfl
@[simp] theorem State.advance_fb (s : State) (acc : Bool) : (s.advance acc).fb = s.fb := rfl
@[simp] theorem State.advance_inputs (s : State) (acc : Bool) :
    (s.advance acc).inputs = s.script.headD (s.inputs.held acc) := rfl
@[simp] theorem State.advance_script (s : State) (acc : Bool) : (s.advance acc).script = s.script.tail := rfl
@[simp] theorem State.advance_offered (s : State) (acc : Bool) :
    (s.advance acc).offered = if s.inputs.rstN && s.inputs.cmdValid && !acc then some s.inputs.cmdWord else none := rfl
@[simp] theorem State.advance_unsettled (s : State) (acc : Bool) : (s.advance acc).unsettled = s.unsettled := rfl
@[simp] theorem State.advance_faults (s : State) (acc : Bool) : (s.advance acc).faults = s.faults := rfl
@[simp] theorem State.advance_writes (s : State) (acc : Bool) : (s.advance acc).writes = s.writes := rfl
@[simp] theorem State.advance_tick (s : State) (acc : Bool) : (s.advance acc).tick = s.tick + 1 := rfl

/-! ## `State.present` -/

@[simp] theorem State.present_brush (s : State) (w : CommandWord) : (s.present w).brush = s.brush := rfl
@[simp] theorem State.present_bidx (s : State) (w : CommandWord) : (s.present w).bidx = s.bidx := rfl
@[simp] theorem State.present_pix (s : State) (w : CommandWord) : (s.present w).pix = s.pix := rfl
@[simp] theorem State.present_rdata (s : State) (w : CommandWord) : (s.present w).rdata = s.rdata := rfl
@[simp] theorem State.present_status (s : State) (w : CommandWord) : (s.present w).status = s.status := rfl
@[simp] theorem State.present_phase (s : State) (w : CommandWord) : (s.present w).phase = .idle := rfl
@[simp] theorem State.present_boot (s : State) (w : CommandWord) : (s.present w).boot = .running := rfl
@[simp] theorem State.present_fb (s : State) (w : CommandWord) : (s.present w).fb = s.fb := rfl
@[simp] theorem State.present_inputs (s : State) (w : CommandWord) :
    (s.present w).inputs = { s.inputs with rstN := true, cmdValid := true, cmdWord := w, latencyOver := true } := rfl
@[simp] theorem State.present_script (s : State) (w : CommandWord) : (s.present w).script = s.script := rfl
@[simp] theorem State.present_offered (s : State) (w : CommandWord) : (s.present w).offered = none := rfl
@[simp] theorem State.present_unsettled (s : State) (w : CommandWord) : (s.present w).unsettled = false := rfl
@[simp] theorem State.present_faults (s : State) (w : CommandWord) : (s.present w).faults = s.faults := rfl
@[simp] theorem State.present_writes (s : State) (w : CommandWord) : (s.present w).writes = s.writes := rfl
@[simp] theorem State.present_tick (s : State) (w : CommandWord) : (s.present w).tick = s.tick := rfl

/-! ## `State.fbWrite`, where it changes nothing -/

@[simp] theorem State.fbWrite_brush (s : State) (req : FbRequest) : (s.fbWrite req).brush = s.brush := by
  unfold State.fbWrite; split <;> rfl

@[simp] theorem State.fbWrite_bidx (s : State) (req : FbRequest) : (s.fbWrite req).bidx = s.bidx := by
  unfold State.fbWrite; split <;> rfl

@[simp] theorem State.fbWrite_pix (s : State) (req : FbRequest) : (s.fbWrite req).pix = s.pix := by
  unfold State.fbWrite; split <;> rfl

@[simp] theorem State.fbWrite_rdata (s : State) (req : FbRequest) : (s.fbWrite req).rdata = s.rdata := by
  unfold State.fbWrite; split <;> rfl

@[simp] theorem State.fbWrite_status (s : State) (req : FbRequest) : (s.fbWrite req).status = s.status := by
  unfold State.fbWrite; split <;> rfl

@[simp] theorem State.fbWrite_boot (s : State) (req : FbRequest) : (s.fbWrite req).boot = s.boot := by
  unfold State.fbWrite; split <;> rfl

@[simp] theorem State.fbWrite_inputs (s : State) (req : FbRequest) : (s.fbWrite req).inputs = s.inputs := by
  unfold State.fbWrite; split <;> rfl

@[simp] theorem State.fbWrite_script (s : State) (req : FbRequest) : (s.fbWrite req).script = s.script := by
  unfold State.fbWrite; split <;> rfl

@[simp] theorem State.fbWrite_offered (s : State) (req : FbRequest) : (s.fbWrite req).offered = s.offered := by
  unfold State.fbWrite; split <;> rfl

@[simp] theorem State.fbWrite_unsettled (s : State) (req : FbRequest) : (s.fbWrite req).unsettled = s.unsettled := by
  unfold State.fbWrite; split <;> rfl

@[simp] theorem State.fbWrite_tick (s : State) (req : FbRequest) : (s.fbWrite req).tick = s.tick := by
  unfold State.fbWrite; split <;> rfl

/-! ## `State.observeOther`, where it changes nothing -/

@[simp] theorem State.observeOther_brush (s : State) : s.observeOther.brush = s.brush := by
  unfold State.observeOther; split <;> rfl

@[simp] theorem State.observeOther_bidx (s : State) : s.observeOther.bidx = s.bidx := by
  unfold State.observeOther; split <;> rfl

@[simp] theorem State.observeOther_pix (s : State) : s.observeOther.pix = s.pix := by
  unfold State.observeOther; split <;> rfl

@[simp] theorem State.observeOther_rdata (s : State) : s.observeOther.rdata = s.rdata := by
  unfold State.observeOther; split <;> rfl

@[simp] theorem State.observeOther_status (s : State) : s.observeOther.status = s.status := by
  unfold State.observeOther; split <;> rfl

@[simp] theorem State.observeOther_phase (s : State) : s.observeOther.phase = s.phase := by
  unfold State.observeOther; split <;> rfl

@[simp] theorem State.observeOther_boot (s : State) : s.observeOther.boot = s.boot := by
  unfold State.observeOther; split <;> rfl

@[simp] theorem State.observeOther_inputs (s : State) : s.observeOther.inputs = s.inputs := by
  unfold State.observeOther; split <;> rfl

@[simp] theorem State.observeOther_script (s : State) : s.observeOther.script = s.script := by
  unfold State.observeOther; split <;> rfl

@[simp] theorem State.observeOther_offered (s : State) : s.observeOther.offered = s.offered := by
  unfold State.observeOther; split <;> rfl

@[simp] theorem State.observeOther_unsettled (s : State) : s.observeOther.unsettled = s.unsettled := by
  unfold State.observeOther; split <;> rfl

@[simp] theorem State.observeOther_faults (s : State) : s.observeOther.faults = s.faults := by
  unfold State.observeOther; split <;> rfl

@[simp] theorem State.observeOther_writes (s : State) : s.observeOther.writes = s.writes := by
  unfold State.observeOther; split <;> rfl

@[simp] theorem State.observeOther_tick (s : State) : s.observeOther.tick = s.tick := by
  unfold State.observeOther; split <;> rfl

end Sys2Proof.Machine
end

