-- ==== Sys2Proof/Laws/Ops.lean ====
section
/-! SUPPORT. What each shared operation can do, said once: framebuffer writes, the result latches of PLOT and PLOTS,
rejections and reset. -/

namespace Sys2Proof.Machine

/-- `FBWrite` with `fb_ready` 1 commits. -/
theorem fbWrite_ready {s : State} (h : s.inputs.fbReady = true) (req : FbRequest) : s.fbWrite req = s.commit req := by
  simp [State.fbWrite, h]

/-- `FBWrite` with `fb_ready` 0 holds its request. -/
theorem fbWrite_waiting {s : State} (h : s.inputs.fbReady = false) (req : FbRequest) :
    s.fbWrite req = { s with phase := .fbwait req } := by
  simp [State.fbWrite, h]

@[simp] theorem pixelRequest_pixel (x y : Coord) (px : Pixel) : (pixelRequest x y px).pixel = px := rfl
@[simp] theorem pixelRequest_offset (x y : Coord) (px : Pixel) :
    (pixelRequest x y px).offset = fbOffset params.wBytes x y := rfl
@[simp] theorem pixelRequest_bit (x y : Coord) (px : Pixel) : (pixelRequest x y px).bit = subPosition x := rfl
@[simp] theorem pixelRequest_oob (x y : Coord) (px : Pixel) :
    (pixelRequest x y px).oob = outOfBounds params.widthPx params.heightPx x y := rfl

/-- A pixel of the display area is not marked out of bounds. -/
theorem outOfBounds_eq_false {x y : Coord} :
    outOfBounds params.widthPx params.heightPx x y = false ↔ inDisplay x y := by
  simp [outOfBounds, inDisplay]

/-! ## What PLOT and PLOTS share -/

section PlotPixel

variable (s : State) (op : BitVec 3) (b : Built) (x y : Coord) (px : Pixel)

@[simp] theorem plotPixel_brush : (s.plotPixel op b x y px).brush = b.brush := by simp [State.plotPixel]
@[simp] theorem plotPixel_bidx : (s.plotPixel op b x y px).bidx = b.bidx := by simp [State.plotPixel]
@[simp] theorem plotPixel_pix : (s.plotPixel op b x y px).pix = px := by simp [State.plotPixel]
@[simp] theorem plotPixel_rdata : (s.plotPixel op b x y px).rdata = s.rdata := by simp [State.plotPixel]
@[simp] theorem plotPixel_status :
    (s.plotPixel op b x y px).status = ((s.status.built b.high).pixelLatched).succeeded op := by
  simp [State.plotPixel]
@[simp] theorem plotPixel_boot : (s.plotPixel op b x y px).boot = s.boot := by simp [State.plotPixel]
@[simp] theorem plotPixel_inputs : (s.plotPixel op b x y px).inputs = s.inputs := by simp [State.plotPixel]
@[simp] theorem plotPixel_script : (s.plotPixel op b x y px).script = s.script := by simp [State.plotPixel]
@[simp] theorem plotPixel_offered : (s.plotPixel op b x y px).offered = s.offered := by simp [State.plotPixel]
@[simp] theorem plotPixel_unsettled : (s.plotPixel op b x y px).unsettled = s.unsettled := by
  simp [State.plotPixel]
@[simp] theorem plotPixel_tick : (s.plotPixel op b x y px).tick = s.tick := by simp [State.plotPixel]

/-- With `fb_ready` 1 the pixel is committed. -/
theorem plotPixel_ready (h : s.inputs.fbReady = true) :
    (s.plotPixel op b x y px).phase = .idle
      ∧ (s.plotPixel op b x y px).writes = s.writes ++ [pixelRequest x y px]
      ∧ (s.plotPixel op b x y px).fb = fbCommitted s (pixelRequest x y px)
      ∧ (s.plotPixel op b x y px).faults =
          { s.faults with
            precondOob := s.faults.precondOob || outOfBounds params.widthPx params.heightPx x y
            fbRace := s.faults.fbRace || races s.inputs.other (fbOffset params.wBytes x y) } := by
  unfold State.plotPixel
  dsimp only
  rw [fbWrite_ready (by simpa using h)]
  exact ⟨rfl, rfl, rfl, rfl⟩

/-- With `fb_ready` 0 the request is held and nothing is stored. -/
theorem plotPixel_waiting (h : s.inputs.fbReady = false) :
    (s.plotPixel op b x y px).phase = .fbwait (pixelRequest x y px)
      ∧ (s.plotPixel op b x y px).writes = s.writes
      ∧ (s.plotPixel op b x y px).fb = s.fb
      ∧ (s.plotPixel op b x y px).faults =
          { s.faults with
            precondOob := s.faults.precondOob || outOfBounds params.widthPx params.heightPx x y } := by
  unfold State.plotPixel
  dsimp only
  rw [fbWrite_waiting (by simpa using h)]
  simp

end PlotPixel

/-! ## Outcomes -/

/-- Every command has a next state in every state. -/
theorem exec_next (i : Instr) (s : State) : ∃ t : State, exec i s = .next t := by
  cases i with
  | build r g b => exact ⟨_, rfl⟩
  | plot x y r g b => exact ⟨_, rfl⟩
  | plots x y r g b => exact ⟨_, rfl⟩
  | sample x y =>
    cases h : s.status.bvalid <;> simp [exec, execSample, h]
  | romrd lvl => exact ⟨_, rfl⟩

/-- Every command word completes in a next state: a command, or a rejection. -/
theorem complete_next (s : State) (w : CommandWord) : ∃ t : State, s.complete w = .next t := by
  unfold State.complete
  cases decode w with
  | command i => exact exec_next i s
  | illegalOp => exact ⟨_, rfl⟩
  | rsvNonzero => exact ⟨_, rfl⟩

/-- What SAMPLE answers. -/
theorem execSample_eq (x y : Coord) (s : State) :
    execSample x y s =
      .next (if s.status.bvalid then (s.latchPixel (compose s.brush x y)).succeed 3#3 else s.reject .noBrush 3#3) := by
  unfold execSample
  split <;> rfl

/-- The fields no command touches. -/
theorem exec_surroundings {i : Instr} {s t : State} (h : exec i s = .next t) : s.sameSurroundings t := by
  cases i with
  | build r g b => cases h; simp [State.sameSurroundings]
  | plot x y r g b => cases h; simp [State.sameSurroundings]
  | plots x y r g b => cases h; simp [State.sameSurroundings]
  | sample x y =>
    simp only [exec, execSample_eq, Host.Outcome.next.injEq] at h
    subst h
    split <;> simp [State.sameSurroundings]
  | romrd lvl => cases h; simp [State.sameSurroundings]

/-- The fields no command word touches. -/
theorem complete_surroundings {w : CommandWord} {s t : State} (h : s.complete w = .next t) :
    s.sameSurroundings t := by
  unfold State.complete at h
  split at h
  · exact exec_surroundings h
  · cases h; simp [State.sameSurroundings]
  · cases h; simp [State.sameSurroundings]

/-- What a command word can do when it completes: one of the five commands' effects, or the error response. -/
inductive Completed (s t : State) : Prop where
  | built (r g b : Channel) (e : t = (s.latchBuild (build rom r g b)).succeed 0#3)
  | plotted (x y : Coord) (r g b : Channel)
      (e : t = s.plotPixel 1#3 (build rom r g b) x y (compose (build rom r g b).brush x y))
  | solid (x y : Coord) (r g b : Channel)
      (e : t = s.plotPixel 2#3 (build rom r g b) x y (build rom r g b).bidx)
  | sampled (x y : Coord) (hb : s.status.bvalid = true)
      (e : t = (s.latchPixel (compose s.brush x y)).succeed 3#3)
  | noBrush (hb : s.status.bvalid = false) (e : t = s.reject .noBrush 3#3)
  | romRead (lvl : Level) (e : t = (s.latchRom (romAt rom lvl)).succeed 4#3)
  | illegalOp (op : BitVec 3) (ho : 5 ≤ op.toNat) (e : t = s.reject .illegalOp op)
  | rsvNonzero (op : BitVec 3) (ho : op.toNat ≤ 4) (e : t = s.reject .rsvNonzero op)

/-- The decode's verdicts by `OP`. -/
theorem decode_op {w : CommandWord} :
    (decode w = .illegalOp → 5 ≤ (fieldOp w).toNat) ∧ (decode w = .rsvNonzero → (fieldOp w).toNat ≤ 4) := by
  have h8 : (fieldOp w).toNat < 8 := (fieldOp w).isLt
  unfold decode commandOf
  interval_cases (fieldOp w).toNat <;> by_cases hr : fieldRsv w = 0#5 <;> simp [hr]

/-- Everything a command can do. -/
theorem exec_cases {i : Instr} {s t : State} (h : exec i s = .next t) : Completed s t := by
  cases i with
  | build r g b => cases h; exact .built r g b rfl
  | plot x y r g b => cases h; exact .plotted x y r g b rfl
  | plots x y r g b => cases h; exact .solid x y r g b rfl
  | sample x y =>
    simp only [exec, execSample_eq, Host.Outcome.next.injEq] at h
    split at h
    · next hb => exact .sampled x y hb h.symm
    · next hb => exact .noBrush (by simpa using hb) h.symm
  | romrd lvl => cases h; exact .romRead lvl rfl

/-- Everything a command word can do. -/
theorem complete_cases {w : CommandWord} {s t : State} (h : s.complete w = .next t) : Completed s t := by
  unfold State.complete at h
  split at h
  · exact exec_cases h
  · next hd => cases h; exact .illegalOp _ (decode_op.1 hd) rfl
  · next hd => cases h; exact .rsvNonzero _ (decode_op.2 hd) rfl

/-- What PLOT and PLOTS do to the model faults: at most record some. -/
theorem plotPixel_faults_le (s : State) (op : BitVec 3) (b : Built) (x y : Coord) (px : Pixel) :
    s.faults.le (s.plotPixel op b x y px).faults
      ∧ (s.plotPixel op b x y px).faults.hostProtocol = s.faults.hostProtocol := by
  cases hr : s.inputs.fbReady with
  | true => simp only [(plotPixel_ready s op b x y px hr).2.2.2, ModelFaults.le]; simp +contextual
  | false => simp only [(plotPixel_waiting s op b x y px hr).2.2.2, ModelFaults.le]; simp +contextual

/-! ## Reset -/

/-- Asserting reset withdraws a waiting write, or commits it where the framebuffer takes it at that edge. -/
theorem withdraw_cases (s : State) :
    s.withdraw = s ∨ ∃ req : FbRequest, s.phase = .fbwait req ∧ s.inputs.fbReady = true ∧ s.withdraw = s.commit req := by
  unfold State.withdraw
  split
  · next req hp =>
    split
    · next hc => exact .inr ⟨req, hp, by simp_all, rfl⟩
    · exact .inl rfl
  · exact .inl rfl
  · exact .inl rfl

end Sys2Proof.Machine
end

