-- ==== Sys2Proof/Laws/Step.lean ====
section
/-! SUPPORT. What one step can do, said once (`step_cases`); every claim about all steps starts from it. -/

namespace Sys2Proof.Machine

@[simp] theorem finish_next (acc : Bool) (s : State) : finish acc (.next s) = .next (s.advance acc) := rfl

/-- A finished outcome has a next state only after a next state. -/
theorem finish_eq_next {acc : Bool} {o : Host.Outcome State Fault Refusal} {t : State}
    (h : finish acc o = .next t) : ∃ u : State, o = .next u ∧ t = u.advance acc := by
  cases o with
  | next u => exact ⟨u, rfl, by simpa using h.symm⟩
  | fault r => cases h
  | refused r => cases h

@[simp] theorem observe_brush (s : State) : s.observe.brush = s.brush := by simp [State.observe]
@[simp] theorem observe_bidx (s : State) : s.observe.bidx = s.bidx := by simp [State.observe]
@[simp] theorem observe_pix (s : State) : s.observe.pix = s.pix := by simp [State.observe]
@[simp] theorem observe_rdata (s : State) : s.observe.rdata = s.rdata := by simp [State.observe]
@[simp] theorem observe_status (s : State) : s.observe.status = s.status := by simp [State.observe]
@[simp] theorem observe_phase (s : State) : s.observe.phase = s.phase := by simp [State.observe]
@[simp] theorem observe_boot (s : State) : s.observe.boot = s.boot := by simp [State.observe]
@[simp] theorem observe_fb (s : State) : s.observe.fb = s.observeOther.fb := by simp [State.observe]
@[simp] theorem observe_inputs (s : State) : s.observe.inputs = s.inputs := by simp [State.observe]
@[simp] theorem observe_script (s : State) : s.observe.script = s.script := by simp [State.observe]
@[simp] theorem observe_offered (s : State) : s.observe.offered = s.offered := by simp [State.observe]
@[simp] theorem observe_writes (s : State) : s.observe.writes = s.writes := by simp [State.observe]
@[simp] theorem observe_tick (s : State) : s.observe.tick = s.tick := by simp [State.observe]

/-- The host's duties do not depend on another writer. -/
@[simp] theorem observeOther_protocolBroken (s : State) : s.observeOther.protocolBroken = s.protocolBroken := by
  simp [State.protocolBroken]

@[simp] theorem observe_unsettled (s : State) : s.observe.unsettled = (s.unsettled || s.protocolBroken) := by
  simp [State.observe]

@[simp] theorem observe_faults (s : State) :
    s.observe.faults = { s.faults with hostProtocol := s.faults.hostProtocol || s.protocolBroken } := by
  simp [State.observe]

/-- A host within R245 leaves only the other writer's bytes to observe. -/
theorem observe_of_kept {s : State} (h : s.protocolBroken = false) : s.observe = s.observeOther := by
  unfold State.observe State.noteProtocol
  rw [observeOther_protocolBroken, h]
  simp only [Bool.or_false]

/-- A host that keeps up the word it raised, or had raised none, is within R245. -/
theorem protocolBroken_of_accepts {s : State} {w : CommandWord} (h : s.accepts w) : s.protocolBroken = false := by
  obtain ⟨hr, hv, hw, -, -, ho⟩ := h
  simp only [State.cmdReady, Bool.and_eq_true] at hr
  rcases ho with ho | ho <;> simp [State.protocolBroken, hr.2, ho, hv, hw]

/-- The block's part of a step, from the state `u` the environment's part leaves: one of six things. -/
inductive BlockStep (u t : State) : Prop where
  /-- Reset is asserted. -/
  | reset (h : u.inputs.rstN = false) (e : t = u.assertReset.advance false)
  /-- The reset sequence goes on. -/
  | boot (h : u.inputs.rstN = true) (hb : u.boot ≠ .running)
      (e : t = ({ u with boot := if u.inputs.latencyOver then .running else .settling } : State).advance false)
  /-- `IDLE` without a word to accept. -/
  | wait (h : u.inputs.rstN = true) (hb : u.boot = .running) (hp : u.phase = .idle) (ha : u.acceptedWord = none)
      (e : t = ({ u with unsettled := false } : State).advance false)
  /-- A word is accepted and stays in `EXEC`. -/
  | accept (w : CommandWord) (h : u.inputs.rstN = true) (hb : u.boot = .running) (hp : u.phase = .idle)
      (ha : u.acceptedWord = some w) (hl : u.inputs.latencyOver = false)
      (e : t = ({ u with unsettled := false, phase := .exec w } : State).advance true)
  /-- A word is accepted and completes. -/
  | transact (w : CommandWord) (v : State) (h : u.inputs.rstN = true) (hb : u.boot = .running) (hp : u.phase = .idle)
      (ha : u.acceptedWord = some w) (hl : u.inputs.latencyOver = true)
      (hc : ({ u with unsettled := false } : State).complete w = .next v) (e : t = v.advance true)
  /-- The word in `EXEC` completes. -/
  | complete (w : CommandWord) (v : State) (h : u.inputs.rstN = true) (hb : u.boot = .running)
      (hp : u.phase = .exec w) (hl : u.inputs.latencyOver = true) (hc : u.complete w = .next v)
      (e : t = v.advance false)
  /-- The block stays in `EXEC`. -/
  | compute (w : CommandWord) (h : u.inputs.rstN = true) (hb : u.boot = .running) (hp : u.phase = .exec w)
      (hl : u.inputs.latencyOver = false) (e : t = u.advance false)
  /-- The waiting write is committed. -/
  | commit (req : FbRequest) (h : u.inputs.rstN = true) (hb : u.boot = .running) (hp : u.phase = .fbwait req)
      (hr : u.inputs.fbReady = true) (e : t = (u.commit req).advance false)
  /-- The write still waits. -/
  | hold (req : FbRequest) (h : u.inputs.rstN = true) (hb : u.boot = .running) (hp : u.phase = .fbwait req)
      (hr : u.inputs.fbReady = false) (hs : u.script ≠ []) (e : t = u.advance false)

/-- Everything a step can do. -/
theorem step_cases {s t : State} (h : step s = .next t) : BlockStep s.observe t := by
  unfold step at h
  generalize s.observe = u at h
  unfold State.blockStep at h
  cases hn : u.inputs.rstN with
  | false =>
    rw [hn] at h
    exact .reset hn (by simpa using h.symm)
  | true =>
    simp only [hn, if_true] at h
    cases hb : u.boot with
    | held =>
      simp only [hb, State.bootStep, finish_next] at h
      exact .boot hn (by simp [hb]) (by simpa using h.symm)
    | settling =>
      simp only [hb, State.bootStep, finish_next] at h
      exact .boot hn (by simp [hb]) (by simpa using h.symm)
    | running =>
      simp only [hb, State.runStep] at h
      cases hp : u.phase with
      | idle =>
        simp only [hp, State.idleStep] at h
        cases ha : u.acceptedWord with
        | none =>
          simp only [ha, finish_next, Host.Outcome.next.injEq] at h
          exact .wait hn hb hp ha (by rw [hp]; exact h.symm)
        | some w =>
          simp only [ha] at h
          cases hl : u.inputs.latencyOver with
          | false =>
            simp only [hl, Bool.false_eq_true, if_false, finish_next] at h
            exact .accept w hn hb hp ha hl (by simpa using h.symm)
          | true =>
            simp only [hl, if_true] at h
            obtain ⟨v, hv, e⟩ := finish_eq_next h
            exact .transact w v hn hb hp ha hl (by rw [hp]; exact hv) e
      | exec w =>
        simp only [hp] at h
        cases hl : u.inputs.latencyOver with
        | false =>
          simp only [hl, Bool.false_eq_true, if_false, finish_next] at h
          exact .compute w hn hb hp hl (by simpa using h.symm)
        | true =>
          simp only [hl, if_true] at h
          obtain ⟨v, hv, e⟩ := finish_eq_next h
          exact .complete w v hn hb hp hl hv e
      | fbwait req =>
        simp only [hp] at h
        cases hr : u.inputs.fbReady with
        | true =>
          simp only [hr, if_true, finish_next] at h
          exact .commit req hn hb hp hr (by simpa using h.symm)
        | false =>
          simp only [hr, Bool.false_eq_true, if_false] at h
          split at h
          · cases h
          · next hs =>
            simp only [finish_next] at h
            exact .hold req hn hb hp hr (by simpa using hs) (by simpa using h.symm)

end Sys2Proof.Machine
end

