-- ==== Sys2Proof/Laws/Listing.lean ====
section
/-! SUPPORT. What the host of a listing can do, said once (`ListingRun.step_next`), and that it keeps its duties. -/

namespace Sys2Proof.Machine

section HostDrives

variable (s : State) (v : Bool) (w : CommandWord) (rsel : BitVec 4)

@[simp] theorem hostDrives_rstN : (s.hostDrives v w rsel).inputs.rstN = s.inputs.rstN := rfl
@[simp] theorem hostDrives_cmdValid : (s.hostDrives v w rsel).inputs.cmdValid = v := rfl
@[simp] theorem hostDrives_cmdWord : (s.hostDrives v w rsel).inputs.cmdWord = w := rfl
@[simp] theorem hostDrives_rsel : (s.hostDrives v w rsel).inputs.rsel = rsel := rfl
@[simp] theorem hostDrives_fbReady : (s.hostDrives v w rsel).inputs.fbReady = s.inputs.fbReady := rfl
@[simp] theorem hostDrives_latencyOver : (s.hostDrives v w rsel).inputs.latencyOver = s.inputs.latencyOver := rfl
@[simp] theorem hostDrives_other : (s.hostDrives v w rsel).inputs.other = s.inputs.other := rfl
@[simp] theorem hostDrives_offered : (s.hostDrives v w rsel).offered = s.offered := rfl
@[simp] theorem hostDrives_unsettled : (s.hostDrives v w rsel).unsettled = s.unsettled := rfl
@[simp] theorem hostDrives_faults : (s.hostDrives v w rsel).faults = s.faults := rfl
@[simp] theorem hostDrives_cmdReady : (s.hostDrives v w rsel).cmdReady = s.cmdReady := rfl
@[simp] theorem hostDrives_readKnown (i : BitVec 4) : (s.hostDrives v w rsel).readKnown i = s.readKnown i := rfl

end HostDrives

/-- A host that waits drives its own ports only. -/
theorem hostWaits_drives (s : State) : ∃ (v : Bool) (w : CommandWord), s.hostWaits = s.hostDrives v w s.inputs.rsel := by
  unfold State.hostWaits
  split <;> exact ⟨_, _, rfl⟩

/-- The host of a listing drives its own ports only. -/
theorem ListingRun.driven_drives (r : ListingRun) :
    ∃ (v : Bool) (w : CommandWord) (rsel : BitVec 4), r.driven = r.machine.hostDrives v w rsel := by
  unfold ListingRun.driven
  split
  · exact ⟨_, _, _, rfl⟩
  · exact ⟨_, _, _, rfl⟩
  · obtain ⟨v, w, h⟩ := hostWaits_drives r.machine
    exact ⟨v, w, _, h⟩

/-- Everything a step of a listing can do. -/
theorem ListingRun.step_next {r r' : ListingRun} (h : r.step = .next r') :
    ∃ t : State, Machine.step r.driven = .next t ∧ r' = { machine := t, todo := r.left, reads := r.told } := by
  unfold ListingRun.step at h
  split at h
  · next t ht => exact ⟨t, ht, by simpa using h.symm⟩
  · cases h
  · cases h

/-- A line is done only out of reset, with no word pending. -/
theorem ListingRun.line_ready {r : ListingRun} {a : HostAction} (h : r.line = some a) :
    r.machine.cmdReady = true ∧ r.machine.offered = none ∧ r.todo.head? = some a := by
  unfold ListingRun.line at h
  split at h
  · next hr =>
    simp only [ListingRun.ready, Bool.and_eq_true, Option.isNone_iff_eq_none] at hr
    exact ⟨hr.1, hr.2, h⟩
  · cases h

/-- The line of a host that may go on. -/
theorem ListingRun.line_of_ready {r : ListingRun} (h : r.machine.cmdReady = true) (ho : r.machine.offered = none) :
    r.line = r.todo.head? := by
  simp [ListingRun.line, ListingRun.ready, h, ho]

end Sys2Proof.Machine
end

