-- ==== Sys2Proof/Laws/PerInstr.lean ====
section
/-! SUPPORT. Statements about each command as syntax, one lemma per constructor of `Instr`. -/

namespace Sys2Proof.Laws.Assembles

open Sys2Proof Sys2Proof.Machine

/-- The assembler accepts the command's line and reads the command back from it (30_encoding.md R90). -/
def Statement (i : Instr) : Prop :=
  i.wellFormed = true ∧ operandsInstr i.toAsm = some i

theorem build (r g b : Channel) : Statement (.build r g b) := by
  have hr := r.isLt
  have hg := g.isLt
  have hb := b.isLt
  simp [Statement, Instr.wellFormed, Instr.toAsm, AsmCommand.wellFormed, Mnemonic.operandKinds, operandsFit,
    OperandKind.admits, operandsInstr]
  omega

theorem plot (x y : Coord) (r g b : Channel) : Statement (.plot x y r g b) := by
  have hx := x.isLt
  have hy := y.isLt
  have hr := r.isLt
  have hg := g.isLt
  have hb := b.isLt
  simp [Statement, Instr.wellFormed, Instr.toAsm, AsmCommand.wellFormed, Mnemonic.operandKinds, operandsFit,
    OperandKind.admits, operandsInstr]
  omega

theorem plots (x y : Coord) (r g b : Channel) : Statement (.plots x y r g b) := by
  have hx := x.isLt
  have hy := y.isLt
  have hr := r.isLt
  have hg := g.isLt
  have hb := b.isLt
  simp [Statement, Instr.wellFormed, Instr.toAsm, AsmCommand.wellFormed, Mnemonic.operandKinds, operandsFit,
    OperandKind.admits, operandsInstr]
  omega

theorem sample (x y : Coord) : Statement (.sample x y) := by
  have hx := x.isLt
  have hy := y.isLt
  simp [Statement, Instr.wellFormed, Instr.toAsm, AsmCommand.wellFormed, Mnemonic.operandKinds, operandsFit,
    OperandKind.admits, operandsInstr]
  omega

theorem romrd (lvl : Level) : Statement (.romrd lvl) := by
  have hl := lvl.isLt
  simp [Statement, Instr.wellFormed, Instr.toAsm, AsmCommand.wellFormed, Mnemonic.operandKinds, operandsFit,
    OperandKind.admits, operandsInstr]
  omega

end Sys2Proof.Laws.Assembles
end

