-- ==== Sys2Proof/Tests/Slice0.lean ====
section
/-! SUPPORT. Tests: the assembler's checks, words of 30_encoding.md R93 and 95_test_vectors.md, one step of each
command, and for each statement with hypotheses a theorem that some concrete state and operands meet them. -/

namespace Sys2Proof.Tests

open Sys2Proof Sys2Proof.Machine

/-! ## The assembler's checks (30_encoding.md R90): each refuses an ill-formed line -/

theorem test_channel_above_255_is_refused :
    AsmCommand.wellFormed ⟨.build, [255, 255, 255]⟩ = true ∧ AsmCommand.wellFormed ⟨.build, [256, 0, 0]⟩ = false
      ∧ AsmCommand.wellFormed ⟨.plot, [0, 0, 0, 0, 256]⟩ = false := by decide

theorem test_coordinate_above_65535_is_refused :
    AsmCommand.wellFormed ⟨.sample, [65535, 65535]⟩ = true ∧ AsmCommand.wellFormed ⟨.sample, [65536, 0]⟩ = false
      ∧ AsmCommand.wellFormed ⟨.plots, [0, 65536, 0, 0, 0]⟩ = false := by decide

theorem test_level_above_15_is_refused :
    AsmCommand.wellFormed ⟨.romrd, [15]⟩ = true ∧ AsmCommand.wellFormed ⟨.romrd, [16]⟩ = false := by decide

theorem test_missing_operand_is_refused :
    AsmCommand.wellFormed ⟨.build, [1, 2]⟩ = false ∧ AsmCommand.wellFormed ⟨.sample, []⟩ = false := by decide

theorem test_extra_operand_is_refused :
    AsmCommand.wellFormed ⟨.romrd, [1, 2]⟩ = false ∧ AsmCommand.wellFormed ⟨.build, [1, 2, 3, 4]⟩ = false := by decide

/-! ## Words written out from 30_encoding.md R80: `Y`, `X`, `R`, `G`, `B`, `RSV`, `OP` -/

/-- `BUILD 200, 50, 50` (R93). -/
theorem test_decode_build :
    decode 0b0000000000000000_0000000000000000_11001000_00110010_00110010_00000_000
      = .command (.build 200 50 50) := by decide

/-- `PLOT 5, 3, 200, 50, 50` (R93). -/
theorem test_decode_plot :
    decode 0b0000000000000011_0000000000000101_11001000_00110010_00110010_00000_001
      = .command (.plot 5 3 200 50 50) := by decide

/-- `PLOTS 5, 3, 200, 50, 50` (R93). -/
theorem test_decode_plots :
    decode 0b0000000000000011_0000000000000101_11001000_00110010_00110010_00000_010
      = .command (.plots 5 3 200 50 50) := by decide

/-- `SAMPLE 6, 1` (R93). -/
theorem test_decode_sample :
    decode 0b0000000000000001_0000000000000110_00000000_00000000_00000000_00000_011
      = .command (.sample 6 1) := by decide

/-- `ROMRD 6` (R93). -/
theorem test_decode_romrd :
    decode 0b0000000000000000_0000000000000000_00000000_00000000_00000110_00000_100
      = .command (.romrd 6) := by decide

/-- Each operand in its own field, all five different. -/
theorem test_decode_fields_apart :
    decode 0x1122334455667701 = .command (.plot 0x3344 0x1122 0x55 0x66 0x77) := by decide

/-- V3.6 to V3.12 of 95_test_vectors.md. -/
theorem test_decode_ignored_and_rejected :
    decode 0x000000000000F604 = .command (.romrd 6) ∧ decode 0xFFFFFFFF00000000 = .command (.build 0 0 0)
      ∧ decode 0x0000000000000005 = .illegalOp ∧ decode 0x0000000000000007 = .illegalOp
      ∧ decode 0x00000000000000FF = .illegalOp ∧ decode 0x0000000000000008 = .rsvNonzero
      ∧ decode 0x0000000000000083 = .rsvNonzero := by decide

/-- A table row's word has `nbits` bits of its number, zeros above (spec/opcode_table.json). -/
theorem test_decode_table_word :
    decodeTableWord 8 0x04 = some (.romrd 0) ∧ decodeTableWord 64 0x0000000000000604 = some (.romrd 6)
      ∧ decodeTableWord 64 0x05 = none := by decide

/-- Lines of P1 (95_test_vectors.md) through the assembler. -/
theorem test_parse_lines :
    parseLine "build 200, 0x32, 50 ; OP=0".toList = some (.send 0x00000000C8323200)
      ∧ parseLine "RD STATUS".toList = some (.read 0)
      ∧ parseLine "RAW 0x0000000000000005".toList = some (.send 0x0000000000000005)
      ∧ parseLine "BUILD 256, 0, 0".toList = none := by decide

/-! ## The ROM and the datapath under the fixture `EX_ROM` (95_test_vectors.md) -/

/-- The densities and population counts of the fixture's table, and its legality. -/
theorem test_exRom :
    exRom.toList.map tileDensity = [0, 1, 2, 3, 4, 5, 6, 7, 8, 9, 10, 11, 12, 13, 14, 16]
      ∧ popcount (romAt exRom 15) = 32 ∧ popcount (romAt exRom 6) = 12 ∧ romLegal true exRom = true := by decide

/-- V1.3, V1.8, V1.10: the high branch. -/
theorem test_build_high :
    build exRom 200 50 50 = ⟨⟨0x00440055, 0x00440055, 0xFFFFFFFF, 0x77AADDAA⟩, 0xC, true⟩
      ∧ build exRom 136 0 0 = ⟨⟨0x00000000, 0x00000000, 0xFFFFFFFF, 0x11004400⟩, 0xC, true⟩
      ∧ build exRom 143 144 151 = ⟨⟨0xFFFFFFFF, 0xEEFFBBFF, 0xEEFFBBFF, 0x55004400⟩, 0xF, true⟩ := by decide

/-- V1.18, V1.21, V1.4: the low branch. -/
theorem test_build_low :
    build exRom 100 20 60 = ⟨⟨0x8855AA55, 0x00440011, 0xAAFFAAFF, 0x00000000⟩, 0x4, false⟩
      ∧ build exRom 8 16 24 = ⟨⟨0x00440055, 0x00440011, 0x00000011, 0x00000000⟩, 0x0, false⟩
      ∧ build exRom 127 127 127 = ⟨⟨0xFFFFFFFF, 0xFFFFFFFF, 0xFFFFFFFF, 0x00000000⟩, 0x7, false⟩ := by decide

/-- V2.2 to V2.6, V2.9, V2.13: the near-black fallback and its edges. -/
theorem test_palette_index :
    paletteIndex false 32 32 32 = 0x8 ∧ paletteIndex false 63 63 63 = 0x8 ∧ paletteIndex false 31 40 40 = 0x0
      ∧ paletteIndex false 32 32 31 = 0x0 ∧ paletteIndex false 0 64 63 = 0x2
      ∧ paletteIndex true 255 128 127 = 0xE := by decide

/-- V5.2, the grid of (180,90,45), rows `y = 0` and `y = 1`. -/
theorem test_compose :
    (List.range 4).map (fun x => compose (build exRom 180 90 45).brush (BitVec.ofNat 16 x) 0) = [0x7, 0x4, 0x7, 0xC]
      ∧ (List.range 4).map (fun x => compose (build exRom 180 90 45).brush (BitVec.ofNat 16 x) 1)
        = [0xC, 0x6, 0xC, 0x6] := by decide

/-- V6. -/
theorem test_offset :
    fbOffset 80 5 3 = 240 ∧ subPosition 5 = 5 ∧ fbOffset 80 639 479 = 38399 ∧ subPosition 639 = 7
      ∧ fbOffset 80 8 1 = 81 ∧ fbOffset 65535 65535 65535 = 4294844416 := by decide

/-- V8: two writes to one byte, then the first cleared. -/
theorem test_merge :
    bytesAt (fbMerge (fbMerge ⟨[], [], [], []⟩ 160 3 0xF) 160 4 0xC) 160 = ⟨0x10, 0x10, 0x18, 0x18⟩
      ∧ bytesAt (fbMerge (fbMerge (fbMerge ⟨[], [], [], []⟩ 160 3 0xF) 160 4 0xC) 160 3 0x0) 160
        = ⟨0x00, 0x00, 0x08, 0x08⟩ := by decide

/-! ## One step of each command -/

/-- A block out of reset that waits for a command. -/
def ready : State := { State.reset with boot := .running }

/-- The same block with its host presenting a word. -/
def presenting (w : CommandWord) : State := ready.present w

/-- A block that holds the brush of V1.3. -/
def brushed : State :=
  { ready with
    brush := ⟨0x00440055, 0x00440055, 0xFFFFFFFF, 0x77AADDAA⟩
    bidx := 0xC
    status := { Status.reset with bvalid := true, high := true } }

/-- A block whose framebuffer does not take the write yet. -/
def notReady : State := { ready with inputs := { StepInput.quiet with fbReady := false } }

/-- A write request in the display area. -/
def someRequest : FbRequest := { offset := 240, bit := 5, pixel := 0xC, oob := false }

/-- A block in `FBWAIT`. -/
def waiting (rdy : Bool) (next : List StepInput) : State :=
  { ready with
    phase := .fbwait someRequest
    inputs := { StepInput.quiet with fbReady := rdy }
    script := next }

/-- A field of the next state, where there is one. -/
def after {α : Type} (o : Host.Outcome State Fault Refusal) (f : State → α) : Option α :=
  match o with
  | .next t => some (f t)
  | .fault _ => none
  | .refused _ => none

/-- V4.3. -/
theorem test_step_build :
    after (step (ready.withFetchWord 64 0x00000000C8323200)) (fun t => (t.status.pack, t.bidx))
      = some (0x00000003, 0xC) := by decide

/-- V4.2, V4.4 and V4.6. -/
theorem test_step_rejections :
    after (step (presenting 0x0000000000000003)) (fun t => t.status.pack) = some 0x000000DC
      ∧ after (step (brushed.present 0x0000000000000005)) (fun t => (t.status.pack, t.brush))
        = some (0x0000014F, brushed.brush)
      ∧ after (step (brushed.present 0x0000000000000009)) (fun t => (t.status.pack, t.writes))
        = some (0x00000057, []) := by decide

/-- V5.1 and V5.4, and P1 line 3's `STATUS`. -/
theorem test_step_sample :
    after (step (brushed.present 0x0002000100000003)) (fun t => (t.pix, t.status.pack)) = some (0xC, 0x000002C3)
      ∧ after (step (brushed.present 0x0006000500000003)) (fun t => t.pix) = some 0xC := by decide

/-- P3 line 2's `STATUS`, and the write it issues. -/
theorem test_step_plot :
    after (step (presenting 0x00000004FF000001)) (fun t => (t.status.pack, t.writes.map fun q => q.bit))
      = some (0x00000243, [4]) := by decide

/-- P2 line 9's `STATUS`, index and pixel. -/
theorem test_step_plots :
    after (step (presenting 0x0001000828282802)) (fun t => (t.status.pack, t.bidx, t.pix))
      = some (0x00000281, 0x8, 0x8) := by decide

/-- P1 line 4's flags. -/
theorem test_step_romrd :
    after (step (brushed.present 0x0000000000000604)) (fun t => t.status.pack) = some 0x00000503 := by decide

/-- A block just out of reset whose reset latency still runs. -/
def slowReset : State := { State.reset with inputs := { StepInput.quiet with latencyOver := false } }

/-- What is left of a listing, what its reads told and whether a fault is recorded, after some steps. -/
def afterRun (n : Nat) (r : ListingRun) : Option (List HostAction × List (BitVec 4 × Option Word) × Bool) :=
  match r.run n with
  | .next r' => some (r'.todo, r'.reads, r'.machine.faults.hostProtocol)
  | .fault _ => none
  | .refused _ => none

/-- P1 line 1 and a read, from a reset whose latency runs for one step more: the host waits before it sends, and breaks
no duty (30_encoding.md R91). -/
theorem test_listing_waits :
    afterRun 1 (slowReset.withProgram [.send 0x3, .read 0]) = some ([.send 0x3, .read 0], [], false)
      ∧ afterRun 4 (slowReset.withProgram [.send 0x3, .read 0]) = some ([], [(0, some 0x000000DC)], false) :=
  ⟨rfl, rfl⟩

/-- A listing's lines, an empty one and a comment passed over; a line that is none refuses the listing. -/
theorem test_parse_listing :
    parseListing ["SAMPLE 0, 0".toList, "".toList, " ; note".toList, "RD STATUS".toList]
        = some [.send 0x3, .read 0]
      ∧ parseListing ["JUMP 4".toList] = none := by decide

/-- The stuck state (10_state.md R41). -/
theorem test_step_stuck : step (waiting false []) = .fault .fbStuck := rfl

/-! ## The hypotheses of the statements are met -/

theorem empty_wf : framebufferWf ⟨[], [], [], []⟩ := by
  intro p
  cases p <;> rfl

theorem origin_inDisplay : inDisplay 0 0 := ⟨widthPx_pos, heightPx_pos⟩

theorem test_witness_EncodeRestoresUsedBits : decode 0x000000000000F604 = .command (.romrd 6) := by decide

theorem test_witness_DecodeClassifiesEveryWord :
    5 ≤ (0x05#64).toNat % 8
      ∧ ((0x0C#64).toNat % 8 < 5 ∧ (0x0C#64).toNat / 8 % 32 ≠ 0)
      ∧ ((0x04#64).toNat % 8 < 5 ∧ (0x04#64).toNat / 8 % 32 = 0)
      ∧ ((0xFFFFFFFFFFFFFF00#64).toNat % 8 < 5 ∧ (0xFFFFFFFFFFFFFF00#64).toNat / 8 % 32 = 0) := by decide

theorem test_witness_OperandsAreTheWordsFields :
    decode 0xFFFFFFFFFFFFFF00 = .command (.build 255 255 255)
      ∧ decode 0xFFFFFFFFFFFFFF01 = .command (.plot 65535 65535 255 255 255)
      ∧ decode 0xFFFFFFFFFFFFFF02 = .command (.plots 65535 65535 255 255 255)
      ∧ decode 0xFFFFFFFFFFFFFF03 = .command (.sample 65535 65535)
      ∧ decode 0xFFFFFFFFFFFFFF04 = .command (.romrd 15) := by decide

theorem test_witness_IgnoredFieldsHaveNoEffect :
    (decode 0xFFFFFFFF00000000 = .command (.build 0 0 0)
        ∧ 0xFFFFFFFF00000000 &&& usedBits .build = 0 &&& usedBits .build)
      ∧ (decode 0x0001000600000003 = .command (.sample 6 1)
        ∧ 0x0001000600000003 &&& usedBits .sample = 0x00010006FFFFFF03 &&& usedBits .sample)
      ∧ (decode 0x0000000000000604 = .command (.romrd 6)
        ∧ 0x0000000000000604 &&& usedBits .romrd = 0xFFFFFFFFFFFFF604 &&& usedBits .romrd) := by decide

theorem test_witness_RomMeetsItsConstraints :
    (0#4).toNat + 1 = (1#4).toNat ∧ (14#4).toNat + 1 = (15#4).toNat ∧ 0 < 4 ∧ 3 < 4 := by decide

theorem test_witness_StrictTableIncreases :
    romLegal true exRom = true ∧ paramsLegal exParams = true ∧ exParams.romStrict = true
      ∧ (0#4).toNat + 1 = (1#4).toNat ∧ (14#4).toNat + 1 = (15#4).toNat ∧ (14#4).toNat ≤ 14 := by decide

theorem test_witness_IntensityLevelReadings : 128 ≤ (128#8).toNat ∧ 128 ≤ (255#8).toNat := by decide

theorem test_witness_ChrominanceLevelIsExactQuotient :
    (128 ≤ (128#8).toNat ∧ (128#8).toNat ≤ (128#8).toNat) ∧ (128 ≤ (255#8).toNat ∧ (0#8).toNat ≤ (255#8).toNat)
      ∧ 120 ≤ (120#8).toNat := by decide

theorem test_witness_PaletteIndexBySourceExpressions : 127 < valueNat 0 0 128 ∧ valueNat 127 64 0 ≤ 127 := by decide

theorem test_witness_BrightBlackReachability :
    valueNat 63 63 63 ≤ 127 ∧ valueNat 127 0 0 ≤ 127 ∧ 127 < valueNat 128 0 0 := by decide

theorem test_witness_NoIntensityInLowBranch : valueNat 127 127 127 ≤ 127 := by decide

theorem test_witness_ValueChannelPlaneIsFull :
    (127 < valueNat 0 0 128 ∧ (128#8).toNat = valueNat 0 0 128)
      ∧ (127 < valueNat 0 128 0 ∧ (128#8).toNat = valueNat 0 128 0)
      ∧ (127 < valueNat 128 0 0 ∧ (128#8).toNat = valueNat 128 0 0) := by decide

theorem test_witness_IntensityNearTheThreshold :
    (128 ≤ valueNat 128 0 0 ∧ valueNat 128 0 0 ≤ 135) ∧ (128 ≤ valueNat 0 135 0 ∧ valueNat 0 135 0 ≤ 135)
      ∧ 136 ≤ valueNat 0 0 136 ∧ romLegal true exRom = true := by decide

theorem test_witness_DensityGrowsWithTheChannel :
    (valueNat 127 127 0 = valueNat 0 127 0 ∧ (0#8).toNat ≤ (127#8).toNat)
      ∧ (valueNat 200 200 0 = valueNat 200 0 0 ∧ (0#8).toNat ≤ (200#8).toNat)
      ∧ (valueNat 0 128 128 = valueNat 0 128 0 ∧ (0#8).toNat ≤ (128#8).toNat)
      ∧ ((0#8).toNat ≤ (127#8).toNat ∧ (127#8).toNat ≤ 127)
      ∧ ((0#8).toNat ≤ (128#8).toNat ∧ (128#8).toNat ≤ (128#8).toNat ∧ 127 < (128#8).toNat) := by decide

theorem test_witness_IntensityGrowsWithTheValue :
    (127 < valueNat 128 0 0 ∧ valueNat 128 0 0 ≤ valueNat 0 135 0 ∧ valueNat 128 0 0 ≤ 135)
      ∧ (127 < valueNat 248 0 0 ∧ valueNat 248 0 0 ≤ valueNat 0 255 0 ∧ 248 ≤ valueNat 248 0 0) := by decide

theorem test_witness_BlackWhiteAndGreyBuilds : 127 < (128#8).toNat := by decide

theorem test_witness_SampledCountIsTileDensity : 127 < valueNat 128 0 0 ∧ valueNat 127 0 0 ≤ 127 := by decide

theorem test_witness_PlottedPixelIsPeriodic :
    ready.inputs.fbReady = true ∧ brushed.inputs.fbReady = true
      ∧ (5#16).toNat = (1#16).toNat + 4 * 1 ∧ (65534#16).toNat = (2#16).toNat + 4 * 16383 := by decide

theorem test_witness_OffsetNeverWraps : 65535 ≤ 65535 := by decide

theorem test_witness_ByteGroupSharesOffset :
    ((0#16).toNat / 8 = (7#16).toNat / 8 ∧ (0#16) ≠ (7#16))
      ∧ ((0#16).toNat / 8 = (4#16).toNat / 8 ∧ (4#16).toNat = (0#16).toNat + 4)
      ∧ ((65531#16).toNat / 8 = (65535#16).toNat / 8 ∧ (65535#16).toNat = (65531#16).toNat + 4) := by decide

theorem test_witness_BuildHighBranchCompletes : 127 < valueNat 128 0 0 := by decide

theorem test_witness_BuildLowBranchCompletes : valueNat 127 32 63 ≤ 127 := by decide

theorem test_witness_SampleCompositesTheLatchedBrush : brushed.status.bvalid = true := by decide

theorem test_witness_SampleWithoutBrushIsRejected : ready.status.bvalid = false := by decide

theorem test_witness_PlotCommitsTheDitheredPixel :
    framebufferWf ready.fb ∧ ready.inputs.fbReady = true ∧ inDisplay 0 0
      ∧ races ready.inputs.other (fbOffset params.wBytes 0 0) = false :=
  ⟨empty_wf, rfl, origin_inDisplay, rfl⟩

theorem test_witness_PlotsCommitsTheBestMatchIndex :
    framebufferWf brushed.fb ∧ brushed.inputs.fbReady = true ∧ inDisplay 0 0
      ∧ races brushed.inputs.other (fbOffset params.wBytes 0 0) = false :=
  ⟨empty_wf, rfl, origin_inDisplay, rfl⟩

theorem test_witness_PlotWaitsForTheFramebuffer : notReady.inputs.fbReady = false := by decide

theorem test_witness_AnyCoordinateIsPlotted : ready.inputs.fbReady = true := by decide

theorem test_witness_BuildsDependOnOperandsOnly :
    ready.inputs.fbReady = true ∧ notReady.inputs.fbReady = false ∧ ready.status ≠ brushed.status := by decide

theorem test_witness_OneWritePerPlot :
    (∃ t : State, exec (.plot 0 0 255 0 0) ready = .next t) ∧ (∃ t : State, exec (.plots 0 0 0 0 0) notReady = .next t)
      ∧ (∃ t : State, exec (.sample 0 0) brushed = .next t)
      ∧ (∀ i : Instr, decode 0x5 ≠ .command i) ∧ ∃ t : State, brushed.complete 0x5 = .next t :=
  ⟨⟨_, rfl⟩, ⟨_, rfl⟩, ⟨_, rfl⟩, fun i h => Verdict.noConfusion (show Verdict.illegalOp = .command i from h), ⟨_, rfl⟩⟩

theorem test_witness_LastCommandIsReported :
    5 ≤ (0xFF#64).toNat % 8
      ∧ ((0x83#64).toNat % 8 < 5 ∧ (0x83#64).toNat / 8 % 32 ≠ 0)
      ∧ ((0x03#64).toNat % 8 = 3 ∧ (0x03#64).toNat / 8 % 32 = 0 ∧ ready.status.bvalid = false)
      ∧ after (ready.complete 0x0) (fun t => t.status.err) = some false := by decide

theorem test_witness_RejectionHasNoOtherEffect :
    decode 0x5 = .illegalOp ∧ decode 0x8 = .rsvNonzero ∧ decode 0x3 = .command (.sample 0 0)
      ∧ ready.status.bvalid = false := by decide

/-- A block with all three valid bits set. -/
def allValid : State :=
  { brushed with pix := 0xC, rdata := 0x88552255, status := { brushed.status with pvalid := true, rvalid := true } }

theorem test_witness_ReadPortMap :
    allValid.phase = .idle ∧ allValid.inReset = false ∧ allValid.status.bvalid = true ∧ allValid.status.pvalid = true
      ∧ allValid.status.rvalid = true ∧ 8 ≤ (8#4).toNat ∧ 8 ≤ (15#4).toNat := by decide

theorem test_witness_UnspecifiedReadsTellNothing :
    ((0#4).toNat < 8 ∧ (7#4).toNat < 8 ∧ (waiting true []).phase ≠ .idle)
      ∧ ({ ready with boot := .held } : State).inReset = true
      ∧ (1 ≤ (1#4).toNat ∧ (1#4).toNat ≤ 5 ∧ 1 ≤ (5#4).toNat ∧ (5#4).toNat ≤ 5 ∧ ready.status.bvalid = false)
      ∧ ready.status.pvalid = false ∧ ready.status.rvalid = false ∧ ready.readKnown 7 = none
      ∧ (8 ≤ (8#4).toNat ∧ 8 ≤ (15#4).toNat)
      ∧ (allValid.phase = .idle ∧ allValid.inReset = false ∧ allValid.status.bvalid = true
        ∧ allValid.status.pvalid = true ∧ allValid.status.rvalid = true)
      ∧ brushed.readKnown 4 = some 0x77AADDAA ∧ brushed.readKnown 5 = some 0x0000000C := by decide

theorem test_witness_MergeStoresOnePixel : framebufferWf ⟨[(160, 0x10)], [], [], [(3, 0x01), (160, 0xFF)]⟩ := by
  intro p
  cases p <;> decide

theorem test_witness_MergeIsIdempotent : framebufferWf ready.fb := empty_wf

theorem test_witness_CanonicalPlanesAreEqual :
    Memory.wf [(0, 0x01), (4294967295, 0xFF)] = true ∧ Memory.wf [(0, 0x00)] = false
      ∧ Memory.wf [(1, 0x01), (0, 0x01)] = false := by decide

/-- Another writer's write that overlaps the block's. -/
def overlapping : OtherWrite := { offset := 240, bytes := ⟨1, 2, 3, 4⟩, overlaps := true }

theorem test_witness_OverlappingWritesRace :
    framebufferWf ready.fb
      ∧ ({ ready with inputs := { StepInput.quiet with other := some overlapping } } : State).inputs.other
        = some overlapping
      ∧ overlapping.overlaps = true ∧ overlapping.offset = someRequest.offset ∧ someRequest.oob = false :=
  ⟨empty_wf, rfl, rfl, rfl, rfl⟩

theorem presenting_accepts (w : CommandWord) : (presenting w).accepts w :=
  ⟨rfl, rfl, rfl, rfl, rfl, .inl rfl⟩

theorem test_witness_StepRunsTheDecodedCommand :
    (presenting 0x604).accepts 0x604 ∧ decode 0x604 = .command (.romrd 6)
      ∧ decodeTableWord 64 0x604 = some (.romrd 6) :=
  ⟨presenting_accepts _, by decide, by decide⟩

theorem test_witness_StepRejectsOtherWords :
    ((presenting 0x5).accepts 0x5 ∧ 5 ≤ (0x5#64).toNat % 8)
      ∧ (presenting 0xC).accepts 0xC ∧ (0xC#64).toNat % 8 < 5 ∧ (0xC#64).toNat / 8 % 32 ≠ 0 :=
  ⟨⟨presenting_accepts _, by decide⟩, presenting_accepts _, by decide, by decide⟩

theorem test_witness_IdleBlockWaits :
    ready.cmdReady = true ∧ ready.inputs.cmdValid = false ∧ ready.unsettled = false ∧ ready.offered = none := by decide

theorem test_witness_WaitingRequestIsHeld :
    (waiting false [StepInput.quiet]).phase = .fbwait someRequest ∧ (waiting false [StepInput.quiet]).boot = .running
      ∧ (waiting false [StepInput.quiet]).inputs.rstN = true ∧ (waiting false [StepInput.quiet]).inputs.fbReady = false
      ∧ (waiting false [StepInput.quiet]).script ≠ [] := by decide

theorem test_witness_WaitingRequestIsCommitted :
    (waiting true []).phase = .fbwait someRequest ∧ (waiting true []).boot = .running
      ∧ (waiting true []).inputs.rstN = true ∧ (waiting true []).inputs.fbReady = true
      ∧ framebufferWf (waiting true []).fb ∧ someRequest.oob = false
      ∧ races (waiting true []).inputs.other someRequest.offset = false
      ∧ races (some { overlapping with overlaps := false }) someRequest.offset = false
      ∧ races (some { overlapping with offset := 241 }) someRequest.offset = false :=
  ⟨rfl, rfl, rfl, rfl, empty_wf, rfl, rfl, rfl, rfl⟩

theorem test_witness_ExecPhaseRefinesTheTransaction :
    ({ presenting 0x1 with script := [StepInput.quiet] } : State).accepts 0x1
      ∧ ({ presenting 0x1 with script := [StepInput.quiet] } : State).inputs.other = none
      ∧ ({ presenting 0x1 with script := [StepInput.quiet] } : State).script = StepInput.quiet :: []
      ∧ StepInput.quiet.rstN = true ∧ StepInput.quiet.latencyOver = true
      ∧ StepInput.quiet.fbReady = ({ presenting 0x1 with script := [StepInput.quiet] } : State).inputs.fbReady
      ∧ StepInput.quiet.other = none :=
  ⟨⟨rfl, rfl, rfl, rfl, rfl, .inl rfl⟩, rfl, rfl, rfl, rfl, rfl, rfl⟩

/-- A block in `EXEC` whose latency still runs. -/
def computing : State :=
  { ready with phase := .exec 0x1, inputs := { StepInput.quiet with latencyOver := false } }

theorem test_witness_ExecPhaseStays :
    computing.phase = .exec 0x1 ∧ computing.boot = .running ∧ computing.inputs.rstN = true
      ∧ computing.inputs.latencyOver = false := by decide

theorem test_witness_ExecPhaseInDisplay : wordInDisplay 0x1 ∧ wordInDisplay 0x5 :=
  ⟨origin_inDisplay, trivial⟩

theorem test_witness_StateAfterReset : 1 ≤ (1#4).toNat ∧ (1#4).toNat ≤ 7 ∧ (7#4).toNat ≤ 7 := by decide

theorem test_witness_ResetFromAnyPhase :
    ({ waiting true [] with inputs := { StepInput.quiet with rstN := false } } : State).inputs.rstN = false
      ∧ (0#4).toNat < 8 ∧ (7#4).toNat < 8 ∧ 8 ≤ (8#4).toNat := by decide

/-- A host that raised a word before the block was ready, and keeps it up. -/
def keptUp : State :=
  { State.reset with inputs := { StepInput.quiet with cmdValid := true, cmdWord := 0x604 }, offered := some 0x604 }

theorem test_witness_LeavingReset :
    (State.reset.inputs.rstN = true ∧ State.reset.boot ≠ .running ∧ State.reset.protocolBroken = false)
      ∧ (keptUp.inputs.rstN = true ∧ keptUp.boot ≠ .running ∧ keptUp.offered = some 0x604
        ∧ keptUp.protocolBroken = false)
      ∧ ready.boot = .running ∧ ready.inputs.rstN = true := by decide

/-- A host that had raised a word before the block was ready, and dropped it. -/
def dropped : State := { State.reset with offered := some 0x604 }

theorem test_witness_HostProtocolIsRecorded :
    (∃ t : State, step dropped = .next t)
      ∧ after (step dropped) (fun t => t.faults.hostProtocol) = some true
      ∧ after (step (presenting 0x604)) (fun t => t.faults.hostProtocol) = some false
      ∧ ({ State.reset with inputs := { StepInput.quiet with cmdValid := true } } : State).cmdReady = false :=
  ⟨⟨_, rfl⟩, by decide, by decide, rfl⟩

theorem test_witness_ListingHost :
    ready.cmdReady = true ∧ ready.offered = none ∧ ready.unsettled = false ∧ ready.inputs.latencyOver = true
      ∧ (ready.withProgram [.send 0x604]).todo = [.send 0x604] ∧ (ready.withProgram [.read 0]).todo = [.read 0]
      ∧ (∃ r' : ListingRun, (ready.withProgram [.send 0x604]).step = .next r')
      ∧ (∃ r' : ListingRun, (ready.withProgram [.read 0]).step = .next r')
      ∧ (slowReset.cmdReady = false ∧ ∃ r' : ListingRun, (slowReset.withProgram [.read 0]).step = .next r') :=
  ⟨rfl, rfl, rfl, rfl, rfl, rfl, ⟨_, rfl⟩, ⟨_, rfl⟩, rfl, ⟨_, rfl⟩⟩

theorem test_witness_ModelFaultsAreNeverCleared : ∃ t : State, step dropped = .next t := ⟨_, rfl⟩

theorem test_witness_WritesLeaveInOrder :
    ∃ t : State, step (waiting true []) = .next t ∧ t.writes = [someRequest] := ⟨_, rfl, rfl⟩

/-- A block with the brush of V1.3, over the ROM of the instance. -/
def builtReady : State :=
  { ready with
    brush := (build rom 200 50 50).brush
    bidx := (build rom 200 50 50).bidx
    status := { Status.reset with bvalid := true, high := (build rom 200 50 50).high } }

theorem test_witness_StepKeepsTheInvariant : builtReady.Inv ∧ ∃ t : State, step builtReady = .next t := by
  refine ⟨⟨empty_wf, ?_, fun _ => ⟨200, 50, 50, rfl, rfl, rfl⟩, fun h => ?_, fun q h => ?_, fun _ => rfl, fun h => ?_⟩,
    ⟨_, rfl⟩⟩
  · unfold Status.consistent
    decide
  · cases h
  · cases h
  · cases h

end Sys2Proof.Tests
end

section
/-! What the decode's verdict says of the fields of a word, what each command answers, what PLOT and PLOTS issue, and
what a completed word reports. -/

namespace Sys2Proof

/-! ## The verdict and the fields of a word (30_encoding.md R86) -/

/-- The command an `OP` names has that `OP`. -/
theorem op_of_commandOf {w : CommandWord} {i : Instr} (h : commandOf w = some i) :
    i.mnemonic.op.toNat = (fieldOp w).toNat := by
  unfold commandOf at h
  split at h <;> cases h <;> next hop => exact hop.symm

/-- A legal mnemonic has an `OP` of 0 to 4. -/
theorem Mnemonic.op_le (m : Mnemonic) : m.op.toNat ≤ 4 := by
  cases m <;> decide

/-- `OP` 3 is the SAMPLE's alone. -/
theorem Mnemonic.op_eq_three {m : Mnemonic} : m.op.toNat = 3 ↔ m = .sample := by
  cases m <;> decide

/-- A word that is a command has the command's `OP` and a zero `RSV`. -/
theorem fields_of_decode_command {w : CommandWord} {i : Instr} (h : decode w = .command i) :
    i.mnemonic.op.toNat = w.toNat % 8 ∧ w.toNat / 8 % 32 = 0 := by
  unfold decode at h
  split at h
  · cases h
  · next j hj =>
    split at h
    · next hrsv =>
      cases h
      exact ⟨(op_of_commandOf hj).trans (fieldOp_toNat w), (fieldRsv_eq_zero w).mp hrsv⟩
    · cases h

/-- A word rejected for its `RSV` has a legal `OP` and a nonzero `RSV`. -/
theorem fields_of_decode_rsvNonzero {w : CommandWord} (h : decode w = .rsvNonzero) :
    w.toNat % 8 ≤ 4 ∧ w.toNat / 8 % 32 ≠ 0 := by
  have hop := Machine.decode_op.2 h
  rw [fieldOp_toNat] at hop
  refine ⟨hop, fun hrsv => ?_⟩
  unfold decode at h
  simp only [(fieldRsv_eq_zero w).mpr hrsv, if_true] at h
  split at h <;> cases h

/-- A word rejected for its `OP` has an illegal one. -/
theorem fields_of_decode_illegalOp {w : CommandWord} (h : decode w = .illegalOp) : 5 ≤ w.toNat % 8 := by
  rw [← fieldOp_toNat]
  exact Machine.decode_op.1 h

end Sys2Proof

namespace Sys2Proof.Machine

/-! ## The answer of each command -/

@[simp] theorem exec_build (r g b : Channel) (s : State) :
    exec (.build r g b) s = .next ((s.latchBuild (build rom r g b)).succeed 0#3) := rfl

@[simp] theorem exec_plot (x y : Coord) (r g b : Channel) (s : State) :
    exec (.plot x y r g b) s =
      .next (s.plotPixel 1#3 (build rom r g b) x y (compose (build rom r g b).brush x y)) := rfl

@[simp] theorem exec_plots (x y : Coord) (r g b : Channel) (s : State) :
    exec (.plots x y r g b) s = .next (s.plotPixel 2#3 (build rom r g b) x y (build rom r g b).bidx) := rfl

@[simp] theorem exec_sample (x y : Coord) (s : State) :
    exec (.sample x y) s =
      .next (if s.status.bvalid then (s.latchPixel (compose s.brush x y)).succeed 3#3 else s.reject .noBrush 3#3) :=
  execSample_eq x y s

@[simp] theorem exec_romrd (lvl : Level) (s : State) :
    exec (.romrd lvl) s = .next ((s.latchRom (romAt rom lvl)).succeed 4#3) := rfl

/-! ## Builds and requests (10_state.md R21) -/

/-- A build latched alone is the same in every state and for every `OP`. -/
theorem latchBuild_sameBuild_latchBuild (s s' : State) (b : Built) (op op' : BitVec 3) :
    ((s.latchBuild b).succeed op).sameBuild ((s'.latchBuild b).succeed op') := ⟨rfl, rfl, rfl⟩

/-- A build latched with a pixel is the build latched alone. -/
theorem latchBuild_sameBuild_plotPixel (s s' : State) (b : Built) (op op' : BitVec 3) (x y : Coord) (px : Pixel) :
    ((s.latchBuild b).succeed op).sameBuild (s'.plotPixel op' b x y px) := by
  simp [State.sameBuild]

/-- The one request of a plotted pixel, at once or held: its coordinate and its pixel say which. -/
theorem plotPixel_issues (s : State) (op : BitVec 3) (b : Built) (x y : Coord) (px : Pixel) :
    s.issues (s.plotPixel op b x y px) (pixelRequest x y px) := by
  constructor
  · intro hready
    obtain ⟨hphase, hwrites, -, -⟩ := plotPixel_ready s op b x y px hready
    exact ⟨hwrites, hphase⟩
  · intro hwaiting
    obtain ⟨hphase, hwrites, -, -⟩ := plotPixel_waiting s op b x y px hwaiting
    exact ⟨hwrites, hphase⟩

/-- A pixel plotted from two states is latched and requested alike in both. -/
theorem plotPixel_agrees (s s' : State) (op : BitVec 3) (b : Built) (x y : Coord) (px : Pixel) :
    (s.plotPixel op b x y px).pix = (s'.plotPixel op b x y px).pix
      ∧ s.issues (s.plotPixel op b x y px) (pixelRequest x y px)
      ∧ s'.issues (s'.plotPixel op b x y px) (pixelRequest x y px) :=
  ⟨by simp, plotPixel_issues s op b x y px, plotPixel_issues s' op b x y px⟩

/-- Settles O34: each command's answer latches `build rom r g b`, and a plotted pixel issues the request of its own
coordinate, whatever the state. -/
theorem buildsDependOnOperandsOnly : Obligations.BuildsDependOnOperandsOnly := by
  refine ⟨fun s s' x y r g b => ?_, fun s s' x y r g b => ⟨?_, ?_⟩⟩
  · exact ⟨_, _, _, _, exec_build r g b s, exec_build r g b s', exec_plot x y r g b s', exec_plots x y r g b s',
      latchBuild_sameBuild_latchBuild .., latchBuild_sameBuild_plotPixel .., latchBuild_sameBuild_plotPixel ..⟩
  · exact ⟨_, _, _, exec_plot x y r g b s, exec_plot x y r g b s', plotPixel_agrees ..⟩
  · exact ⟨_, _, _, exec_plots x y r g b s, exec_plots x y r g b s', plotPixel_agrees ..⟩

/-! ## The report of a completed word (10_state.md R33) -/

/-- What a status reports of the last command: its `OP`, and the cause of its rejection if there was one. -/
def Status.reports (st : Status) (op : Nat) (cause : Option ErrorCode) : Prop :=
  st.lastop.toNat = op ∧ st.err = cause.isSome ∧ st.ecode = cause.elim 0 ErrorCode.bits

theorem Status.succeeded_reports (st : Status) (op : BitVec 3) : (st.succeeded op).reports op.toNat none :=
  ⟨rfl, rfl, rfl⟩

theorem Status.rejected_reports (st : Status) (e : ErrorCode) (op : BitVec 3) :
    (st.rejected e op).reports op.toNat (some e) := ⟨rfl, rfl, rfl⟩

/-- The cause of a word's rejection, by its `OP`, its `RSV` and `BVALID`, in the order of 60_exceptions.md R215. -/
def rejectionCause (w : CommandWord) (bvalid : Bool) : Option ErrorCode :=
  if 5 ≤ w.toNat % 8 then some .illegalOp
  else if w.toNat / 8 % 32 ≠ 0 then some .rsvNonzero
  else if w.toNat % 8 = 3 ∧ bvalid = false then some .noBrush
  else none

/-- A command reports its `OP`; the only rejection among commands is the SAMPLE's without a brush. -/
theorem exec_reports {i : Instr} {s t : State} (h : exec i s = .next t) :
    t.status.reports i.mnemonic.op.toNat
      (if i.mnemonic = .sample ∧ s.status.bvalid = false then some .noBrush else none) := by
  cases i with
  | build r g b => cases h; exact Status.succeeded_reports _ 0#3
  | plot x y r g b =>
    cases h
    rw [plotPixel_status]
    exact Status.succeeded_reports _ 1#3
  | plots x y r g b =>
    cases h
    rw [plotPixel_status]
    exact Status.succeeded_reports _ 2#3
  | sample x y =>
    rw [exec_sample] at h
    cases hb : s.status.bvalid with
    | true => rw [hb] at h; cases h; exact Status.succeeded_reports _ 3#3
    | false => rw [hb] at h; cases h; exact Status.rejected_reports _ .noBrush 3#3
  | romrd lvl => cases h; exact Status.succeeded_reports _ 4#3

/-- Every completed word reports its `OP` and the cause of its rejection, or none. -/
theorem complete_reports {w : CommandWord} {s t : State} (h : s.complete w = .next t) :
    t.status.reports (w.toNat % 8) (rejectionCause w s.status.bvalid) := by
  unfold State.complete at h
  split at h
  · next i hd =>
    obtain ⟨hop, hrsv⟩ := fields_of_decode_command hd
    have hle := Mnemonic.op_le i.mnemonic
    have hcause : rejectionCause w s.status.bvalid =
        if i.mnemonic = .sample ∧ s.status.bvalid = false then some .noBrush else none := by
      rw [rejectionCause, if_neg (by omega), if_neg (by omega), ← hop]
      simp only [Mnemonic.op_eq_three]
    rw [hcause, ← hop]
    exact exec_reports h
  · next hd =>
    cases h
    have hcause : rejectionCause w s.status.bvalid = some .illegalOp :=
      if_pos (fields_of_decode_illegalOp hd)
    rw [hcause, ← fieldOp_toNat]
    exact Status.rejected_reports ..
  · next hd =>
    cases h
    obtain ⟨hop, hrsv⟩ := fields_of_decode_rsvNonzero hd
    have hcause : rejectionCause w s.status.bvalid = some .rsvNonzero := by
      rw [rejectionCause, if_neg (by omega), if_pos hrsv]
    rw [hcause, ← fieldOp_toNat]
    exact Status.rejected_reports ..

/-- Settles O37: the report of a completed word (`complete_reports`), read off along the order of the causes. -/
theorem lastCommandIsReported : Obligations.LastCommandIsReported := by
  intro s w
  obtain ⟨t, ht⟩ := complete_next s w
  obtain ⟨hlastop, herr, hecode⟩ := complete_reports ht
  refine ⟨t, ht, hlastop, ?_⟩
  rw [herr, hecode, rejectionCause]
  split
  · next hop =>
    have hlegal : ¬ w.toNat % 8 < 5 := by omega
    have hsample : w.toNat % 8 ≠ 3 := by omega
    simp [ErrorCode.bits, hop, hlegal, hsample]
  split
  · next hop hrsv => simp [ErrorCode.bits, hop, hrsv]
  split
  · next hop hrsv hsample => simp [ErrorCode.bits, hrsv, hsample]
  · next hop hrsv hsample =>
    have hbrush : w.toNat % 8 = 3 → s.status.bvalid = true := by simpa using hsample
    simp +contextual [hop, hrsv, hbrush]

end Sys2Proof.Machine
end


section
/-! The command word: which command a word decodes to and with which operands, that only the used bits of the word
decide it, and that the encoder leaves the other bits 0. -/

namespace Sys2Proof

/-! ## The fields of a word as numbers (30_encoding.md R82 to R84) -/

theorem fieldBlue_toNat (w : CommandWord) : (fieldBlue w).toNat = w.toNat / 2 ^ 8 % 256 := extract_toNat w 8 8

theorem fieldGreen_toNat (w : CommandWord) : (fieldGreen w).toNat = w.toNat / 2 ^ 16 % 256 := extract_toNat w 16 8

theorem fieldRed_toNat (w : CommandWord) : (fieldRed w).toNat = w.toNat / 2 ^ 24 % 256 := extract_toNat w 24 8

theorem fieldX_toNat (w : CommandWord) : (fieldX w).toNat = w.toNat / 2 ^ 32 % 65536 := extract_toNat w 32 16

/-- `Y` is the top field, so the number above bit 48 is the whole of it. -/
theorem fieldY_toNat (w : CommandWord) : (fieldY w).toNat = w.toNat / 2 ^ 48 := by
  have hw := w.isLt
  rw [fieldY, extract_toNat]
  omega

theorem fieldLevel_toNat (w : CommandWord) : (fieldLevel w).toNat = w.toNat / 2 ^ 8 % 16 := extract_toNat w 8 4

/-! ## The command a word names (30_encoding.md R81) -/

/-- The command of a mnemonic, with the operands of a word's fields. -/
def commandAt : Mnemonic → CommandWord → Instr
  | .build, w => .build (fieldRed w) (fieldGreen w) (fieldBlue w)
  | .plot, w => .plot (fieldX w) (fieldY w) (fieldRed w) (fieldGreen w) (fieldBlue w)
  | .plots, w => .plots (fieldX w) (fieldY w) (fieldRed w) (fieldGreen w) (fieldBlue w)
  | .sample, w => .sample (fieldX w) (fieldY w)
  | .romrd, w => .romrd (fieldLevel w)

/-- A word names the command whose mnemonic has its `OP`, with the operands of its fields. -/
theorem commandOf_eq_some_iff {w : CommandWord} {i : Instr} :
    commandOf w = some i ↔ fieldOp w = i.mnemonic.op ∧ commandAt i.mnemonic w = i := by
  constructor
  · intro h
    refine ⟨BitVec.eq_of_toNat_eq (op_of_commandOf h).symm, ?_⟩
    unfold commandOf at h
    split at h <;> cases h <;> rfl
  · rintro ⟨hop, hi⟩
    rw [← hi, commandOf, hop]
    cases i <;> rfl

/-- A word decodes to a command when `RSV` is 0, its `OP` is the command's and its fields are the operands. -/
theorem decode_eq_command_iff {w : CommandWord} {i : Instr} :
    decode w = .command i ↔ fieldRsv w = 0 ∧ fieldOp w = i.mnemonic.op ∧ commandAt i.mnemonic w = i := by
  rw [← commandOf_eq_some_iff, decode]
  cases commandOf w with
  | none => simp
  | some j => by_cases hrsv : fieldRsv w = 0#5 <;> simp [hrsv]

/-- Settles O3: each verdict bounds `OP` and `RSV` (`fields_of_decode_command` and its siblings), and the bounds of
the three verdicts exclude each other. -/
theorem decodeClassifiesEveryWord : Obligations.DecodeClassifiesEveryWord := by
  intro w
  cases hd : decode w with
  | illegalOp =>
    have hop := fields_of_decode_illegalOp hd
    exact ⟨fun _ => rfl, fun hlegal => by omega, fun hlegal => by omega⟩
  | rsvNonzero =>
    obtain ⟨hop, hrsv⟩ := fields_of_decode_rsvNonzero hd
    exact ⟨fun hillegal => by omega, fun _ _ => rfl, fun _ hzero => absurd hzero hrsv⟩
  | command i =>
    obtain ⟨hop, hrsv⟩ := fields_of_decode_command hd
    have hle := Mnemonic.op_le i.mnemonic
    exact ⟨fun hillegal => by omega, fun _ hnonzero => absurd hrsv hnonzero, fun _ _ => ⟨i, rfl, hop⟩⟩

/-- Settles O4: a decoded command is `commandAt` its mnemonic, whose operands are the word's fields. -/
theorem operandsAreTheWordsFields : Obligations.OperandsAreTheWordsFields := by
  intro w i hd
  obtain ⟨-, -, hi⟩ := decode_eq_command_iff.mp hd
  cases i with
  | build r g b =>
    cases hi
    exact ⟨fieldRed_toNat w, fieldGreen_toNat w, fieldBlue_toNat w⟩
  | plot x y r g b | plots x y r g b =>
    cases hi
    exact ⟨fieldX_toNat w, fieldY_toNat w, fieldRed_toNat w, fieldGreen_toNat w, fieldBlue_toNat w⟩
  | sample x y =>
    cases hi
    exact ⟨fieldX_toNat w, fieldY_toNat w⟩
  | romrd lvl =>
    cases hi
    exact fieldLevel_toNat w

/-! ## Only the used bits decide the command (30_encoding.md R85) -/

/-- Words that agree on a mask have the same field wherever the mask covers the whole field. -/
theorem extract_eq_of_and_eq {n : Nat} {w w' mask : BitVec n} (h : w &&& mask = w' &&& mask) {lo len : Nat}
    (hmask : mask.extractLsb' lo len = BitVec.allOnes len) : w'.extractLsb' lo len = w.extractLsb' lo len := by
  have hfield := congrArg (BitVec.extractLsb' lo len) h
  rw [BitVec.extractLsb'_and, BitVec.extractLsb'_and, hmask, BitVec.and_allOnes, BitVec.and_allOnes] at hfield
  exact hfield.symm

section UsedBits

variable {m : Mnemonic} {w w' : CommandWord} (h : w &&& usedBits m = w' &&& usedBits m)
include h

/-- Every command reads `OP`. -/
theorem fieldOp_eq_of_usedBits : fieldOp w' = fieldOp w :=
  extract_eq_of_and_eq h (by cases m <;> decide)

/-- Every command reads `RSV`. -/
theorem fieldRsv_eq_of_usedBits : fieldRsv w' = fieldRsv w :=
  extract_eq_of_and_eq h (by cases m <;> decide)

/-- The operands of a command lie in its used bits. -/
theorem commandAt_eq_of_usedBits : commandAt m w' = commandAt m w := by
  cases m with
  | build =>
    have hr : fieldRed w' = fieldRed w := extract_eq_of_and_eq h (by decide)
    have hg : fieldGreen w' = fieldGreen w := extract_eq_of_and_eq h (by decide)
    have hb : fieldBlue w' = fieldBlue w := extract_eq_of_and_eq h (by decide)
    rw [commandAt, commandAt, hr, hg, hb]
  | plot | plots =>
    have hall : w &&& BitVec.allOnes 64 = w' &&& BitVec.allOnes 64 := h
    rw [BitVec.and_allOnes, BitVec.and_allOnes] at hall
    rw [hall]
  | sample =>
    have hx : fieldX w' = fieldX w := extract_eq_of_and_eq h (by decide)
    have hy : fieldY w' = fieldY w := extract_eq_of_and_eq h (by decide)
    rw [commandAt, commandAt, hx, hy]
  | romrd =>
    have hl : fieldLevel w' = fieldLevel w := extract_eq_of_and_eq h (by decide)
    rw [commandAt, commandAt, hl]

end UsedBits

/-- A word that agrees with a command's word on the command's used bits is the same command. -/
theorem decode_eq_command_of_usedBits {w w' : CommandWord} {i : Instr} (hd : decode w = .command i)
    (h : w &&& usedBits i.mnemonic = w' &&& usedBits i.mnemonic) : decode w' = .command i := by
  rw [decode_eq_command_iff] at hd ⊢
  rwa [fieldRsv_eq_of_usedBits h, fieldOp_eq_of_usedBits h, commandAt_eq_of_usedBits h]

/-! ## The encoder writes the ignored fields as 0 (30_encoding.md R85, R90) -/

/-- The fields a command ignores, all ones, in R85's list; of ROMRD's `B` the upper half. -/
def ignoredFields : Mnemonic → CommandWord
  | .build => packFields (.allOnes 16) (.allOnes 16) 0 0 0 0 0
  | .plot => packFields 0 0 0 0 0 0 0
  | .plots => packFields 0 0 0 0 0 0 0
  | .sample => packFields 0 0 (.allOnes 8) (.allOnes 8) (.allOnes 8) 0 0
  | .romrd => packFields (.allOnes 16) (.allOnes 16) (.allOnes 8) (.allOnes 8) (BitVec.allOnes 4 ++ (0 : BitVec 4)) 0 0

/-- The ignored fields are all the bits a command does not use. -/
theorem not_usedBits (m : Mnemonic) : ~~~usedBits m = ignoredFields m := by
  cases m <;> decide

/-- Packed words meet field by field. -/
theorem packFields_and (y x y' x' : BitVec 16) (r g b r' g' b' : BitVec 8) (rsv rsv' : BitVec 5) (op op' : BitVec 3) :
    packFields y x r g b rsv op &&& packFields y' x' r' g' b' rsv' op' =
      packFields (y &&& y') (x &&& x') (r &&& r') (g &&& g') (b &&& b') (rsv &&& rsv') (op &&& op') := by
  simp only [packFields, ← BitVec.and_append]

theorem packFields_zero : packFields 0 0 0 0 0 0 0 = 0 := by decide

/-- The byte of a level is 0 in its upper half. -/
theorem levelByte_and_upperHalf (lvl : Level) :
    ((0 : BitVec 4) ++ lvl : BitVec 8) &&& (BitVec.allOnes 4 ++ (0 : BitVec 4) : BitVec 8) = 0 :=
  BitVec.and_append.trans (by simp)

/-- The encoder's word is 0 in the fields its command ignores. -/
theorem encode_and_ignoredFields (i : Instr) : encode i &&& ignoredFields i.mnemonic = 0 := by
  rw [← packFields_zero]
  cases i with
  | build r g b => simp [encode, ignoredFields, Instr.mnemonic, packFields_and]
  | plot | plots => simp [encode, ignoredFields, Instr.mnemonic, packFields_and]
  | sample x y => simp [encode, ignoredFields, Instr.mnemonic, packFields_and]
  | romrd lvl =>
    rw [encode, Instr.mnemonic, ignoredFields, packFields_and, levelByte_and_upperHalf]
    simp

end Sys2Proof

namespace Sys2Proof.Machine

/-- A word that decodes to a command completes with the command's meaning. -/
theorem complete_of_decode_command {w : CommandWord} {i : Instr} (hd : decode w = .command i) (s : State) :
    s.complete w = exec i s := by
  rw [State.complete, hd]

/-- Settles O5: words equal on the used bits decode alike (`decode_eq_command_of_usedBits`), so they complete with the
same command; the encoder's words are 0 in the ignored fields. -/
theorem ignoredFieldsHaveNoEffect : Obligations.IgnoredFieldsHaveNoEffect := by
  refine ⟨fun s w w' i hd h => ?_, fun i => ?_, rfl, rfl, rfl, rfl, rfl⟩
  · have hd' := decode_eq_command_of_usedBits hd h
    rw [complete_of_decode_command hd s, complete_of_decode_command hd' s]
  · rw [not_usedBits]
    exact encode_and_ignoredFields i

end Sys2Proof.Machine
end

section
/-! The dither ROM: replication, densities and strictness of a legal table (40_tables.md R110 to R116); the value and
branch of a triple as numbers, and the palette index by the source's expressions (R120 to R122). -/

namespace Sys2Proof.Machine

/-! ## Tile positions, replication and densities of one word -/

/-- The tile positions are the bits `8r + c` of row `r` and column `c` (40_tables.md R114). -/
theorem mem_tilePositions {n : Nat} : n ∈ tilePositions ↔ ∃ r < 4, ∃ c < 4, n = 8 * r + c := by
  constructor
  · intro h
    have hdiv : ∀ n ∈ tilePositions, n / 8 < 4 ∧ n % 8 < 4 := by decide
    exact ⟨n / 8, (hdiv n h).1, n % 8, (hdiv n h).2, by omega⟩
  · rintro ⟨r, hr, c, hc, rfl⟩
    have hall : ∀ r < 4, ∀ c < 4, 8 * r + c ∈ tilePositions := by decide
    exact hall r hr c hc

/-- Replication by rows and columns (40_tables.md R115). -/
theorem replicated_iff (w : Word) :
    replicated w = true ↔ ∀ r c : Nat, r < 4 → c < 4 → w.getLsbD (8 * r + 4 + c) = w.getLsbD (8 * r + c) := by
  simp only [replicated, List.all_eq_true, beq_iff_eq, mem_tilePositions]
  constructor
  · intro h r c hr hc
    rw [Nat.add_right_comm]
    exact h _ ⟨r, hr, c, hc, rfl⟩
  · rintro h n ⟨r, hr, c, hc, rfl⟩
    rw [Nat.add_right_comm]
    exact h r c hr hc

/-- The complement of a replicated word is replicated (40_tables.md R115). -/
theorem replicated_not {w : Word} (h : replicated w = true) : replicated (~~~w) = true := by
  rw [replicated_iff] at h ⊢
  intro r c hr hc
  have hleft : 8 * r + 4 + c < 32 := by omega
  have hright : 8 * r + c < 32 := by omega
  simp only [BitVec.getLsbD_not, hleft, hright, h r c hr hc]

/-- The 32 bits of a word are the tile positions and the positions four bits above them. -/
theorem range_perm_tilePositions : (List.range 32).Perm (tilePositions ++ tilePositions.map (· + 4)) := by decide

/-- A replicated word has twice as many one bits as its tile (40_tables.md R114): its other half counts
the same bits. -/
theorem popcount_of_replicated {w : Word} (h : replicated w = true) : popcount w = 2 * tileDensity w := by
  have hhalf : tilePositions.countP (fun n => w.getLsbD (n + 4)) = tileDensity w := by
    refine List.countP_congr fun n hn => ?_
    obtain ⟨r, hr, c, hc, rfl⟩ := mem_tilePositions.mp hn
    rw [Nat.add_right_comm, (replicated_iff w).mp h r c hr hc]
  calc popcount w
      = tileDensity w + tilePositions.countP (fun n => w.getLsbD (n + 4)) := by
        rw [popcount, range_perm_tilePositions.countP_eq, List.countP_append, List.countP_map]
        rfl
    _ = 2 * tileDensity w := by rw [hhalf, Nat.two_mul]

theorem tileDensity_le (w : Word) : tileDensity w ≤ 16 := List.countP_le_length

theorem tileDensity_allOff : tileDensity 0x00000000 = 0 := by decide

theorem tileDensity_allOn : tileDensity 0xFFFFFFFF = 16 := by decide

/-! ## The entries of a table -/

/-- 16 entries cannot have all of the 17 densities, whatever the table (40_tables.md R114). -/
theorem exists_skipped_density (table : Rom) : ∃ d : Nat, d ≤ 16 ∧ ∀ i : Level, tileDensity (romAt table i) ≠ d := by
  have hcard : (Finset.univ.image fun k : Fin 16 => tileDensity (table.get k)).card < (Finset.range 17).card :=
    lt_of_le_of_lt Finset.card_image_le (by simp)
  obtain ⟨d, hd, hskip⟩ := Finset.exists_mem_notMem_of_card_lt_card hcard
  refine ⟨d, Nat.lt_succ_iff.mp (Finset.mem_range.mp hd), fun i hi => hskip ?_⟩
  exact Finset.mem_image.mpr ⟨i.toFin, Finset.mem_univ _, hi⟩

section LegalTable

variable {strict : Bool} {table : Rom} (h : romLegal strict table = true)
include h

/-- Level 0 is all-off (40_tables.md R111). -/
theorem romAt_zero : romAt table 0 = 0x00000000 := ((romLegal_iff strict table).mp h).1

/-- Level 15 is all-on (40_tables.md R112). -/
theorem romAt_fifteen : romAt table 15 = 0xFFFFFFFF := ((romLegal_iff strict table).mp h).2.1

theorem romAt_replicated (i : Level) : replicated (romAt table i) = true := by
  obtain ⟨-, -, -, hrep, -⟩ := (romLegal_iff strict table).mp h
  exact hrep i.toFin

theorem popcount_romAt (i : Level) : popcount (romAt table i) = 2 * tileDensity (romAt table i) :=
  popcount_of_replicated (romAt_replicated h i)

end LegalTable

/-- In a strict legal table the next entry is denser (40_tables.md R116). -/
theorem romLegal_strict_lt {table : Rom} (h : romLegal true table = true) {i j : Level} (hij : i.toNat + 1 = j.toNat) :
    tileDensity (romAt table i) < tileDensity (romAt table j) := by
  obtain ⟨-, -, -, -, hlt⟩ := (romLegal_iff true table).mp h
  have hj := j.isLt
  obtain ⟨k, hi, hnext⟩ : ∃ k : Fin 15, k.castSucc = i.toFin ∧ k.succ = j.toFin :=
    ⟨⟨i.toNat, by omega⟩, rfl, Fin.ext hij⟩
  rw [romAt, romAt, ← hi, ← hnext]
  exact hlt rfl k

/-- A strict legal table is strictly denser: below the top an entry is less dense than its successor, whose density is
at most 16, so it is not the all-on word. -/
theorem romLegal_strictlyDenser {table : Rom} (h : romLegal true table = true) : strictlyDenser table := by
  refine ⟨fun i j hij => romLegal_strict_lt h hij, fun i hi => ?_⟩
  have hlt : tileDensity (romAt table i) < tileDensity (romAt table (i + 1)) :=
    romLegal_strict_lt h (by rw [BitVec.toNat_add]; simp; omega)
  have hle : tileDensity (romAt table i) ≤ 15 := by
    have hmax := tileDensity_le (romAt table (i + 1))
    omega
  refine ⟨hle, fun hon => ?_⟩
  rw [hon, tileDensity_allOn] at hle
  omega

/-- Settles O8: the machine's ROM is a legal table (`rom_legal`), and a legal table has each property; population
counts follow from tile densities by replication. -/
theorem romMeetsItsConstraints : Obligations.RomMeetsItsConstraints := by
  have hmono : ∀ i j : Level, i.toNat + 1 = j.toNat → tileDensity (romAt rom i) ≤ tileDensity (romAt rom j) :=
    fun i j hij => romLegal_mono rom_legal i j (by omega)
  refine ⟨romAt_zero rom_legal, romAt_fifteen rom_legal, fun i j hij => ⟨hmono i j hij, ?_⟩,
    popcount_romAt rom_legal, ?_, ?_, exists_skipped_density rom, fun i r c hr hc => ⟨?_, ?_⟩⟩
  · rw [popcount_romAt rom_legal, popcount_romAt rom_legal]
    exact Nat.mul_le_mul_left 2 (hmono i j hij)
  · rw [romAt_zero rom_legal, tileDensity_allOff]
  · rw [romAt_fifteen rom_legal, tileDensity_allOn]
  · exact (replicated_iff _).mp (romAt_replicated rom_legal i) r c hr hc
  · exact (replicated_iff _).mp (replicated_not (romAt_replicated rom_legal i)) r c hr hc

/-- Settles O9: every strict legal table is strictly denser (`romLegal_strictlyDenser`), and the machine's ROM is a
legal table for the machine's own `ROM_STRICT`. -/
theorem strictTableIncreases : Obligations.StrictTableIncreases := by
  refine ⟨fun table h => romLegal_strictlyDenser h, ?_⟩
  cases hstrict : params.romStrict with
  | false => exact .inl rfl
  | true => exact .inr (romLegal_strictlyDenser (hstrict ▸ rom_legal))

/-! ## The value and the branch of a triple (41_brush_builder.md R130, R131) -/

theorem maxChannel_toNat (a b : Channel) : (maxChannel a b).toNat = max a.toNat b.toNat := by
  unfold maxChannel
  split
  · next hlt => exact (Nat.max_eq_right (Nat.le_of_lt hlt)).symm
  · next hge => exact (Nat.max_eq_left (Nat.le_of_not_lt hge)).symm

theorem value_toNat (r g b : Channel) : (value r g b).toNat = valueNat r g b := by
  rw [value, maxChannel_toNat, maxChannel_toNat, valueNat]

/-- Bit 7 of a channel says that it exceeds 127. -/
theorem highBranch_eq (v : Channel) : highBranch v = decide (127 < v.toNat) := by
  have hv := v.isLt
  rw [highBranch, BitVec.getLsbD, Nat.testBit_eq_decide_div_mod_eq, decide_eq_decide]
  omega

theorem highBranch_value (r g b : Channel) : highBranch (value r g b) = decide (127 < valueNat r g b) := by
  rw [highBranch_eq, value_toNat]

/-! ## The palette index (40_tables.md R120 to R122) -/

/-- One bit of a channel, masked and shifted as the source writes it. -/
theorem and_twoPow_ushiftRight (c : Channel) (k n : Nat) :
    (c &&& BitVec.twoPow 8 k) >>> n = bif c.getLsbD k then BitVec.twoPow 8 k >>> n else 0#8 := by
  rw [BitVec.and_twoPow]
  cases c.getLsbD k <;> simp

/-- Four bits in a row are the OR of their places. -/
theorem append_ofBool_setWidth : ∀ high sr sg sb : Bool,
    (BitVec.ofBool high ++ BitVec.ofBool sr ++ BitVec.ofBool sg ++ BitVec.ofBool sb).setWidth 8 =
      ((bif high then 0x08#8 else 0#8)
        ||| ((bif sr then 0x04#8 else 0#8) ||| (bif sg then 0x02#8 else 0#8) ||| bif sb then 0x01#8 else 0#8)) := by
  decide

/-- The high branch's index by the source's expression: the intensity bit and the top bits of the channels. -/
theorem baseIndex_true_setWidth (r g b : Channel) :
    (baseIndex true r g b).setWidth 8 =
      (0x08#8 ||| ((r &&& 0x80#8) >>> 5 ||| (g &&& 0x80#8) >>> 6 ||| (b &&& 0x80#8) >>> 7)) := by
  rw [show (0x80#8) = BitVec.twoPow 8 7 from rfl]
  simp only [and_twoPow_ushiftRight]
  exact append_ofBool_setWidth true (r.getLsbD 7) (g.getLsbD 7) (b.getLsbD 7)

/-- The low branch's computed index by the source's expression: bit 6 of the channels. -/
theorem baseIndex_false_setWidth (r g b : Channel) :
    (baseIndex false r g b).setWidth 8 =
      ((r &&& 0x40#8) >>> 4 ||| (g &&& 0x40#8) >>> 5 ||| (b &&& 0x40#8) >>> 6) := by
  rw [show (0x40#8) = BitVec.twoPow 8 6 from rfl]
  simp only [and_twoPow_ushiftRight]
  exact (append_ofBool_setWidth false (r.getLsbD 6) (g.getLsbD 6) (b.getLsbD 6)).trans BitVec.zero_or

theorem nearBlack_iff (r g b : Channel) :
    nearBlack r g b = true ↔ 31 < r.toNat ∧ 31 < g.toNat ∧ 31 < b.toNat := by
  simp [nearBlack, BitVec.lt_def, and_assoc]

/-- The high branch has no fallback. -/
theorem paletteIndex_true (r g b : Channel) : paletteIndex true r g b = baseIndex true r g b := rfl

/-- The low branch's index with its near-black fallback (40_tables.md R122). -/
theorem paletteIndex_false (r g b : Channel) :
    paletteIndex false r g b =
      if baseIndex false r g b = 0 ∧ 31 < r.toNat ∧ 31 < g.toNat ∧ 31 < b.toNat then 0x8 else baseIndex false r g b := by
  simp only [paletteIndex, Bool.not_false, Bool.true_and, Bool.and_eq_true, beq_iff_eq, nearBlack_iff]

/-- A pixel is 0 exactly when it is 0 as a byte. -/
theorem pixel_setWidth_eq_zero_iff (p : Pixel) : p.setWidth 8 = 0#8 ↔ p = 0 := by
  revert p
  decide

/-- Settles O12: the value says which branch is taken, and in each the computed index is the source's expression; the
fallback's test on the 4-bit index is the source's test on the byte. -/
theorem paletteIndexBySourceExpressions : Obligations.PaletteIndexBySourceExpressions := by
  intro r g b
  constructor
  · intro hhigh
    rw [highBranch_value, decide_eq_true hhigh, paletteIndex_true, baseIndex_true_setWidth]
  · intro hlow
    rw [highBranch_value, decide_eq_false (Nat.not_lt.mpr hlow), paletteIndex_false,
      apply_ite (BitVec.setWidth 8), ← baseIndex_false_setWidth]
    simp only [pixel_setWidth_eq_zero_iff]
    rfl

end Sys2Proof.Machine
end

section
/-! The brush builder: its levels as numbers (41_brush_builder.md R132 to R137), the build of each branch (R135, R136,
R138, R140) with its palette index as a number (40_tables.md R120 to R122), and BUILD (R145). -/

namespace Sys2Proof.Machine

/-! ## Levels as numbers (41_brush_builder.md R132, R134, R137) -/

/-- The chrominance level is held in 4 bits; in 12 bits the numerator does not overflow, nor does the denominator
in 9. -/
theorem highLevel_toNat (v c : Channel) : (highLevel v c).toNat = c.toNat * 16 / (v.toNat + 8) % 16 := by
  have hv := v.isLt
  have hc := c.isLt
  have hnum : (c.setWidth 12 <<< 4).toNat = c.toNat * 16 := by
    rw [BitVec.toNat_shiftLeft, Nat.shiftLeft_eq, BitVec.toNat_setWidth]
    omega
  have hden : ((v.setWidth 9 + 8).setWidth 12).toNat = v.toNat + 8 := by
    rw [BitVec.toNat_setWidth, BitVec.toNat_add, BitVec.toNat_setWidth]
    change (v.toNat % 2 ^ 9 + 8) % 2 ^ 9 % 2 ^ 12 = v.toNat + 8
    omega
  rw [highLevel, BitVec.toNat_setWidth, BitVec.toNat_udiv, hnum, hden]

theorem highLevel_eq_ofNat (v c : Channel) : highLevel v c = BitVec.ofNat 4 (c.toNat * 16 / (v.toNat + 8)) := by
  rw [← BitVec.toNat_inj, highLevel_toNat, BitVec.toNat_ofNat]

theorem lowLevel_toNat (c : Channel) : (lowLevel c).toNat = c.toNat / 8 % 16 := by
  rw [lowLevel, BitVec.toNat_setWidth, BitVec.toNat_ushiftRight, Nat.shiftRight_eq_div_pow]

theorem lowLevel_eq_ofNat (c : Channel) : lowLevel c = BitVec.ofNat 4 (c.toNat / 8) := by
  rw [← BitVec.toNat_inj, lowLevel_toNat, BitVec.toNat_ofNat]

theorem intensityLevel_toNat (v : Channel) : (intensityLevel v).toNat = (255 - v.toNat) / 8 % 16 := by
  rw [intensityLevel, extract_toNat, BitVec.toNat_not]
  omega

/-- In the high branch the intensity level counts down from 15 in steps of 8. -/
theorem intensityLevel_eq_ofNat {v : Channel} (h : 127 < v.toNat) :
    intensityLevel v = BitVec.ofNat 4 (15 - (v.toNat - 128) / 8) := by
  have hv := v.isLt
  rw [← BitVec.toNat_inj, intensityLevel_toNat, BitVec.toNat_ofNat]
  omega

/-! ## The palette index as a number (40_tables.md R120 to R122) -/

theorem selectedBit_true_toNat (c : Channel) : (selectedBit true c).toNat = c.toNat / 128 := by
  have hc := c.isLt
  have hbit : (c.getLsbD 7).toNat = c.toNat / 2 ^ 7 % 2 := Nat.toNat_testBit ..
  rw [selectedBit, if_pos rfl, hbit]
  omega

theorem selectedBit_false_toNat {c : Channel} (h : c.toNat ≤ 127) : (selectedBit false c).toNat = c.toNat / 64 := by
  have hbit : (c.getLsbD 6).toNat = c.toNat / 2 ^ 6 % 2 := Nat.toNat_testBit ..
  rw [selectedBit, if_neg Bool.false_ne_true, hbit]
  omega

/-- The computed index is the branch and the selected bits, each in its place. -/
theorem baseIndex_toNat (high : Bool) (r g b : Channel) :
    (baseIndex high r g b).toNat =
      8 * high.toNat + 4 * (selectedBit high r).toNat + 2 * (selectedBit high g).toNat
        + (selectedBit high b).toNat := by
  simp only [baseIndex, append_toNat, BitVec.toNat_ofBool]
  omega

theorem paletteIndex_true_toNat (r g b : Channel) :
    (paletteIndex true r g b).toNat = 8 + 4 * (r.toNat / 128) + 2 * (g.toNat / 128) + b.toNat / 128 := by
  simp only [paletteIndex_true, baseIndex_toNat, selectedBit_true_toNat, Bool.toNat_true, Nat.mul_one]

/-- The value bounds each channel. -/
theorem channels_le_of_valueNat_le {r g b : Channel} {n : Nat} (h : valueNat r g b ≤ n) :
    r.toNat ≤ n ∧ g.toNat ≤ n ∧ b.toNat ≤ n := by
  rwa [valueNat, max_le_iff, max_le_iff, and_assoc] at h

theorem baseIndex_false_toNat {r g b : Channel} (h : valueNat r g b ≤ 127) :
    (baseIndex false r g b).toNat = 4 * (r.toNat / 64) + 2 * (g.toNat / 64) + b.toNat / 64 := by
  obtain ⟨hr, hg, hb⟩ := channels_le_of_valueNat_le h
  rw [baseIndex_toNat, selectedBit_false_toNat hr, selectedBit_false_toNat hg, selectedBit_false_toNat hb,
    Bool.toNat_false, Nat.mul_zero, Nat.zero_add]

/-- In the low branch the computed index is 0 exactly where no channel reaches 64, so the fallback is taken exactly
where every channel lies in 32..63. -/
theorem paletteIndex_false_toNat {r g b : Channel} (h : valueNat r g b ≤ 127) :
    (paletteIndex false r g b).toNat =
      if (32 ≤ r.toNat ∧ r.toNat ≤ 63) ∧ (32 ≤ g.toNat ∧ g.toNat ≤ 63) ∧ 32 ≤ b.toNat ∧ b.toNat ≤ 63
      then 8 else 4 * (r.toNat / 64) + 2 * (g.toNat / 64) + b.toNat / 64 := by
  have hzero : baseIndex false r g b = 0 ↔ r.toNat ≤ 63 ∧ g.toNat ≤ 63 ∧ b.toNat ≤ 63 := by
    rw [← BitVec.toNat_inj, baseIndex_false_toNat h]
    change _ = 0 ↔ _
    omega
  rw [paletteIndex_false, apply_ite BitVec.toNat, baseIndex_false_toNat h]
  exact if_congr (by rw [hzero]; omega) rfl rfl

/-! ## The build of each branch (41_brush_builder.md R140) -/

section BuildOfBranch

variable (table : Rom) {r g b : Channel}

/-- Above 127 the build is the high branch's. -/
theorem build_of_high (h : 127 < valueNat r g b) :
    build table r g b = { brush := highBrush table r g b, bidx := paletteIndex true r g b, high := true } := by
  simp [build, highBranch_value, h]

/-- Up to 127 the build is the low branch's. -/
theorem build_of_low (h : valueNat r g b ≤ 127) :
    build table r g b = { brush := lowBrush table r g b, bidx := paletteIndex false r g b, high := false } := by
  simp [build, highBranch_value, Nat.not_lt.mpr h]

/-- The high branch's planes by the numbers of the triple (41_brush_builder.md R132 to R135). -/
theorem highBrush_eq (h : 127 < valueNat r g b) :
    highBrush table r g b =
      { blue := romAt table (BitVec.ofNat 4 (b.toNat * 16 / (valueNat r g b + 8)))
        green := romAt table (BitVec.ofNat 4 (g.toNat * 16 / (valueNat r g b + 8)))
        red := romAt table (BitVec.ofNat 4 (r.toNat * 16 / (valueNat r g b + 8)))
        intensity := ~~~romAt table (BitVec.ofNat 4 (15 - (valueNat r g b - 128) / 8)) } := by
  have hv : 127 < (value r g b).toNat := (value_toNat r g b).symm ▸ h
  simp only [highBrush, highLevel_eq_ofNat, intensityLevel_eq_ofNat hv, value_toNat]

/-- The low branch's planes by the numbers of the triple (41_brush_builder.md R136 to R138). -/
theorem lowBrush_eq (r g b : Channel) :
    lowBrush table r g b =
      { blue := romAt table (BitVec.ofNat 4 (b.toNat / 8))
        green := romAt table (BitVec.ofNat 4 (g.toNat / 8))
        red := romAt table (BitVec.ofNat 4 (r.toNat / 8))
        intensity := 0x00000000 } := by
  simp only [lowBrush, lowLevel_eq_ofNat]

end BuildOfBranch

/-- Settles O14: up to 127 the brush is the low branch's, whose intensity plane no entry of the table enters. -/
theorem noIntensityInLowBranch : Obligations.NoIntensityInLowBranch := by
  intro table r g b hlow
  rw [build_of_low table hlow, lowBrush_eq]

/-! ## BUILD (41_brush_builder.md R145) -/

/-- What BUILD answers for a known build: the build and its report in `STATUS`, and everything else as before. -/
theorem exec_build_of_eq {r g b : Channel} {brush : Planes Word} {bidx : Pixel} {high : Bool}
    (h : build rom r g b = { brush := brush, bidx := bidx, high := high }) (s : State) :
    ∃ t : State, exec (.build r g b) s = .next t
      ∧ t.brush = brush ∧ t.bidx = bidx
      ∧ t.status = { s.status with bvalid := true, high := high, err := false, ecode := 0, lastop := 0 }
      ∧ t.pix = s.pix ∧ t.rdata = s.rdata ∧ t.phase = .idle ∧ t.faults = s.faults
      ∧ s.sameFramebuffer t ∧ s.sameSurroundings t := by
  have hexec := exec_build r g b s
  have hsurroundings := exec_surroundings hexec
  rw [h] at hexec hsurroundings
  exact ⟨_, hexec, rfl, rfl, rfl, rfl, rfl, rfl, rfl, ⟨fun _ _ => rfl, rfl⟩, hsurroundings⟩

/-- Settles O25: the high branch's build (`build_of_high`), its planes and index as numbers, in the frame of BUILD. -/
theorem buildHighBranchCompletes : Obligations.BuildHighBranchCompletes := by
  intro s r g b hhigh
  obtain ⟨t, hexec, hbrush, hbidx, hframe⟩ := exec_build_of_eq (build_of_high rom hhigh) s
  rw [highBrush_eq rom hhigh] at hbrush
  refine ⟨t, hexec, congrArg Planes.blue hbrush, congrArg Planes.green hbrush, congrArg Planes.red hbrush,
    congrArg Planes.intensity hbrush, ?_, hframe⟩
  rw [hbidx, paletteIndex_true_toNat]

/-- Settles O26: the low branch's build (`build_of_low`), its planes and index as numbers, in the frame of BUILD. -/
theorem buildLowBranchCompletes : Obligations.BuildLowBranchCompletes := by
  intro s r g b hlow
  obtain ⟨t, hexec, hbrush, hbidx, hframe⟩ := exec_build_of_eq (build_of_low rom hlow) s
  rw [lowBrush_eq] at hbrush
  refine ⟨t, hexec, congrArg Planes.blue hbrush, congrArg Planes.green hbrush, congrArg Planes.red hbrush,
    congrArg Planes.intensity hbrush, ?_, hframe⟩
  rw [hbidx, paletteIndex_false_toNat hlow]

end Sys2Proof.Machine
end

section
/-! The pixel compositor: the tile bit it picks of each plane (42_pixel_compositor.md R160 to R162, R168), the
framebuffer offset as a number (R164), and the one write of PLOT and PLOTS (R166). -/

namespace Sys2Proof.Machine

/-! ## The tile bit of each plane (42_pixel_compositor.md R160 to R162, R168) -/

theorem tileCoord_toNat (c : Coord) : (tileCoord c).toNat = c.toNat % 4 := by
  rw [tileCoord, extract_toNat]
  omega

theorem tileBit_eq (x y : Coord) : tileBit x y = 8 * (y.toNat % 4) + x.toNat % 4 := by
  rw [tileBit, tileCoord_toNat, tileCoord_toNat]

/-- Four bits packed into a pixel, each read back from its plane's place (42_pixel_compositor.md R162). -/
theorem packed_getLsbD (p : Plane) : ∀ i r g b : Bool,
    (BitVec.ofBool i ++ BitVec.ofBool r ++ BitVec.ofBool g ++ BitVec.ofBool b : Pixel).getLsbD p.index =
      (⟨b, g, r, i⟩ : Planes Bool).get p := by
  cases p <;> decide

/-- Each plane's bit of the pixel is the tile bit of its brush word. -/
theorem compose_getLsbD (brush : Planes Word) (x y : Coord) (p : Plane) :
    (compose brush x y).getLsbD p.index = (brush.get p).getLsbD (tileBit x y) := by
  rw [compose, packed_getLsbD]
  cases p <;> rfl

/-- Settles O20: each plane gives its tile bit (`compose_getLsbD`), whose number is `8 ty + tx` with `ty` and `tx`
below 4. -/
theorem composeSelectsTheTileBit : Obligations.ComposeSelectsTheTileBit := by
  intro brush x y p
  refine ⟨?_, by omega, by omega⟩
  rw [compose_getLsbD, tileBit_eq]

/-! ## The framebuffer offset as a number (42_pixel_compositor.md R164) -/

/-- The last row at the widest pitch bounds every offset. -/
theorem offset_le {wBytes : Nat} (h : wBytes ≤ 65535) (x y : Coord) :
    y.toNat * wBytes + x.toNat / 8 ≤ 4294844416 := by
  have hx := x.isLt
  have hrow : y.toNat * wBytes ≤ 65535 * 65535 := Nat.mul_le_mul (Nat.le_of_lt_succ y.isLt) h
  omega

/-- The offset fits its 32 bits, so neither the product nor the sum wraps. -/
theorem fbOffset_toNat {wBytes : Nat} (h : wBytes ≤ 65535) (x y : Coord) :
    (fbOffset wBytes x y).toNat = y.toNat * wBytes + x.toNat / 8 := by
  have hle := offset_le h x y
  have hy : (y.setWidth 32).toNat = y.toNat := BitVec.toNat_setWidth_of_le (by decide)
  have hpitch : (BitVec.ofNat 32 wBytes).toNat = wBytes := by
    rw [BitVec.toNat_ofNat]
    omega
  have hcolumn : ((x >>> 3).setWidth 32).toNat = x.toNat / 8 := by
    rw [BitVec.toNat_setWidth, BitVec.toNat_ushiftRight, Nat.shiftRight_eq_div_pow]
    omega
  rw [fbOffset, BitVec.toNat_add, BitVec.toNat_mul, hy, hpitch, hcolumn, Nat.mod_add_mod]
  exact Nat.mod_eq_of_lt (by omega)

/-- Settles O23: the offset is exact for every legal pitch (`fbOffset_toNat`), that of this machine among them. -/
theorem offsetNeverWraps : Obligations.OffsetNeverWraps :=
  ⟨fun _ x y h => ⟨fbOffset_toNat h x y, offset_le h x y⟩, fbOffset_toNat (Nat.le_refl 65535) _ _,
    fun x y _ => fbOffset_toNat wBytes_le x y⟩

/-! ## One write per PLOT and PLOTS (42_pixel_compositor.md R166) -/

/-- A plotted pixel is one write, committed or held. -/
theorem plotPixel_one_write (s : State) (op : BitVec 3) (b : Built) (x y : Coord) (px : Pixel) :
    let t := s.plotPixel op b x y px
    (∃ q : FbRequest, t.writes = s.writes ++ [q] ∧ t.phase = .idle ∧ s.inputs.fbReady = true)
      ∨ ∃ q : FbRequest, t.writes = s.writes ∧ t.fb = s.fb ∧ t.phase = .fbwait q ∧ s.inputs.fbReady = false := by
  cases hready : s.inputs.fbReady with
  | true =>
    obtain ⟨hphase, hwrites, -, -⟩ := plotPixel_ready s op b x y px hready
    exact .inl ⟨_, hwrites, hphase, rfl⟩
  | false =>
    obtain ⟨hphase, hwrites, hfb, -⟩ := plotPixel_waiting s op b x y px hready
    exact .inr ⟨_, hwrites, hfb, hphase, rfl⟩

/-- A word that is no command is answered by the error response. -/
theorem complete_of_not_command {w : CommandWord} (hw : ∀ i : Instr, decode w ≠ .command i) (s : State) :
    ∃ e : ErrorCode, s.complete w = .next (s.reject e (fieldOp w)) := by
  cases hd : decode w with
  | command i => exact absurd hd (hw i)
  | illegalOp => exact ⟨.illegalOp, by rw [State.complete, hd]⟩
  | rsvNonzero => exact ⟨.rsvNonzero, by rw [State.complete, hd]⟩

/-- Settles O35: PLOT and PLOTS plot one pixel (`plotPixel_one_write`); the other commands only latch, and a rejection
only reports. -/
theorem oneWritePerPlot : Obligations.OneWritePerPlot := by
  constructor
  · intro s t i h
    cases i with
    | plot x y r g b | plots x y r g b =>
      cases h
      exact plotPixel_one_write ..
    | build r g b | romrd lvl =>
      cases h
      exact ⟨rfl, rfl, rfl⟩
    | sample x y =>
      rw [exec_sample] at h
      cases hb : s.status.bvalid with
      | true => rw [hb] at h; cases h; exact ⟨rfl, rfl, rfl⟩
      | false => rw [hb] at h; cases h; exact ⟨rfl, rfl, rfl⟩
  · intro s t w hw h
    obtain ⟨e, hreject⟩ := complete_of_not_command hw s
    rw [hreject] at h
    cases h
    exact ⟨rfl, rfl, rfl⟩

end Sys2Proof.Machine
end

section
/-! The host's read port (43_readback.md R190 to R192): what each index names, which reads a rule fixes, and what the
port shows for them. -/

namespace Sys2Proof.Machine

/-! ## The register an index names (R191) -/

section RegisterAt
variable (s : State)

@[simp] theorem registerAt_status : s.registerAt 0 = s.status.pack := rfl
@[simp] theorem registerAt_blue : s.registerAt 1 = s.brush.blue := rfl
@[simp] theorem registerAt_green : s.registerAt 2 = s.brush.green := rfl
@[simp] theorem registerAt_red : s.registerAt 3 = s.brush.red := rfl
@[simp] theorem registerAt_intensity : s.registerAt 4 = s.brush.intensity := rfl
@[simp] theorem registerAt_bidx : s.registerAt 5 = s.bidx.setWidth 32 := rfl
@[simp] theorem registerAt_pix : s.registerAt 6 = s.pix.setWidth 32 := rfl
@[simp] theorem registerAt_rdata : s.registerAt 7 = s.rdata := rfl

theorem registerAt_reserved {rsel : BitVec 4} (h : 8 ≤ rsel.toNat) : s.registerAt rsel = 0x00000000 := by
  obtain ⟨n, hn⟩ : ∃ n : Nat, rsel.toNat = n + 8 := ⟨rsel.toNat - 8, by omega⟩
  rw [State.registerAt, hn]
  rfl

theorem registerAt_bidx_toNat : (s.registerAt 5).toNat = s.bidx.toNat := by
  rw [registerAt_bidx, BitVec.toNat_setWidth_of_le (by decide)]

theorem registerAt_pix_toNat : (s.registerAt 6).toNat = s.pix.toNat := by
  rw [registerAt_pix, BitVec.toNat_setWidth_of_le (by decide)]

end RegisterAt

/-! ## What the port shows (R190, R192, R194) -/

theorem readPort_of_specified {s : State} {rsel : BitVec 4} (h : s.readSpecified rsel = true) :
    s.readPort rsel = s.registerAt rsel := if_pos h

theorem readPort_of_unspecified {s : State} {rsel : BitVec 4} (h : s.readSpecified rsel = false) :
    s.readPort rsel = Config.freeRead s.tick rsel &&& ~~~zeroBits rsel := by
  rw [State.readPort, h, if_neg Bool.false_ne_true]

theorem readSpecified_reserved (s : State) {rsel : BitVec 4} (h : 8 ≤ rsel.toNat) : s.readSpecified rsel = true := by
  rw [State.readSpecified, decide_eq_true h, Bool.true_or]

/-- Out of reset and in `IDLE`, the valid bit of an index decides whether a rule fixes its read. -/
theorem readSpecified_of_indexValid {s : State} {rsel : BitVec 4} (hidle : s.phase = .idle)
    (hreset : s.inReset = false) (hvalid : s.indexValid rsel = true) : s.readSpecified rsel = true := by
  simp [State.readSpecified, hidle, hreset, hvalid]

/-- Out of reset and in `IDLE`, a valid index reads its register. -/
theorem readPort_of_indexValid {s : State} {rsel : BitVec 4} (hidle : s.phase = .idle)
    (hreset : s.inReset = false) (hvalid : s.indexValid rsel = true) : s.readPort rsel = s.registerAt rsel :=
  readPort_of_specified (readSpecified_of_indexValid hidle hreset hvalid)

theorem readPort_reserved (s : State) {rsel : BitVec 4} (h : 8 ≤ rsel.toNat) : s.readPort rsel = 0x00000000 :=
  (readPort_of_specified (readSpecified_reserved s h)).trans (registerAt_reserved s h)

/-- A free value keeps the bits of `BIDX` and `PIX` that always read 0. -/
theorem and_not_zeroBits_lt {rsel : BitVec 4} (h : rsel = 5 ∨ rsel = 6) (w : Word) :
    (w &&& ~~~zeroBits rsel).toNat < 16 := by
  rw [zeroBits, if_pos h, BitVec.toNat_and]
  exact Nat.lt_succ_of_le Nat.and_le_right

theorem registerAt_pixel_lt (s : State) {rsel : BitVec 4} (h : rsel = 5 ∨ rsel = 6) :
    (s.registerAt rsel).toNat < 16 := by
  rcases h with rfl | rfl
  · rw [registerAt_bidx_toNat]
    exact s.bidx.isLt
  · rw [registerAt_pix_toNat]
    exact s.pix.isLt

/-- Specified or free, `BIDX` and `PIX` read a 4-bit value (R192). -/
theorem readPort_pixel_lt (s : State) {rsel : BitVec 4} (h : rsel = 5 ∨ rsel = 6) :
    (s.readPort rsel).toNat < 16 := by
  cases hspec : s.readSpecified rsel with
  | true =>
    rw [readPort_of_specified hspec]
    exact registerAt_pixel_lt s h
  | false =>
    rw [readPort_of_unspecified hspec]
    exact and_not_zeroBits_lt h _

/-! ## The map of the read port -/

/-- Settles O40: a valid index reads its register (`readPort_of_indexValid`), the reserved ones read 0 and the two
4-bit ones stay below 16 in every state. -/
theorem readPortMap : Obligations.ReadPortMap := by
  refine ⟨fun s hidle hreset => ?_, fun s rsel h => readPort_reserved s h,
    fun s => ⟨readPort_pixel_lt s (.inl rfl), readPort_pixel_lt s (.inr rfl)⟩⟩
  have hread (rsel : BitVec 4) (hvalid : s.indexValid rsel = true) : s.readPort rsel = s.registerAt rsel :=
    readPort_of_indexValid hidle hreset hvalid
  refine ⟨(hread 0 rfl).trans (registerAt_status s), fun hb => ?brush, fun hp => ?pix,
    fun hr => (hread 7 hr).trans (registerAt_rdata s)⟩
  case brush =>
    refine ⟨(hread 1 hb).trans (registerAt_blue s), (hread 2 hb).trans (registerAt_green s),
      (hread 3 hb).trans (registerAt_red s), (hread 4 hb).trans (registerAt_intensity s), ?_⟩
    rw [hread 5 hb, registerAt_bidx_toNat]
  case pix => rw [hread 6 hp, registerAt_pix_toNat]

end Sys2Proof.Machine
end


section
/-! Rejections and the error report (60_exceptions.md): a rejected word ends in the error response and nothing else
(R216), and no word depends on the report it overwrites (R217). -/

namespace Sys2Proof

/-- `OP` as the low bits of the word (30_encoding.md R81). -/
theorem fieldOp_eq_ofNat (w : CommandWord) : fieldOp w = BitVec.ofNat 3 (w.toNat % 8) := by
  rw [← fieldOp_toNat, BitVec.ofNat_toNat, BitVec.setWidth_eq]

/-- A word that names a command has the command's `OP`. -/
theorem fieldOp_of_decode_command {w : CommandWord} {i : Instr} (hd : decode w = .command i) :
    fieldOp w = i.mnemonic.op := by
  rw [fieldOp_eq_ofNat, ← (fields_of_decode_command hd).1, BitVec.ofNat_toNat, BitVec.setWidth_eq]

end Sys2Proof

namespace Sys2Proof.Machine

/-! ## The three rejections (60_exceptions.md R212 to R214, R216) -/

section Rejections

variable {w : CommandWord} (s : State)

theorem complete_of_decode_illegalOp (hd : decode w = .illegalOp) :
    s.complete w = .next (s.reject .illegalOp (fieldOp w)) := by
  rw [State.complete, hd]

theorem complete_of_decode_rsvNonzero (hd : decode w = .rsvNonzero) :
    s.complete w = .next (s.reject .rsvNonzero (fieldOp w)) := by
  rw [State.complete, hd]

/-- A SAMPLE without a valid brush is answered like an illegal word, with its own cause. -/
theorem complete_of_decode_sample_noBrush {x y : Coord} (hd : decode w = .command (.sample x y))
    (hbrush : s.status.bvalid = false) : s.complete w = .next (s.reject .noBrush (fieldOp w)) := by
  have hop : fieldOp w = 3#3 := fieldOp_of_decode_command hd
  rw [complete_of_decode_command hd, exec_sample, if_neg (by simp [hbrush]), hop]

end Rejections

/-- Settles O38: each of the three rejections is the error response `State.reject`, which writes the report and `phase`
alone. -/
theorem rejectionHasNoOtherEffect : Obligations.RejectionHasNoOtherEffect := by
  intro s w
  rw [← fieldOp_eq_ofNat]
  exact ⟨complete_of_decode_illegalOp s, complete_of_decode_rsvNonzero s,
    fun _ _ => complete_of_decode_sample_noBrush s⟩

/-! ## The report of the last command (10_state.md R33) -/

/-- The state with another report of the last command in `ERR`, `ECODE` and `LASTOP`. -/
def State.withReport (s : State) (err : Bool) (ecode lastop : BitVec 3) : State :=
  { s with status := { s.status with err := err, ecode := ecode, lastop := lastop } }

section WithReport

variable (s : State) (err : Bool) (ecode lastop : BitVec 3)

/-! Latching a result leaves the report alone. -/

@[simp] theorem withReport_brush : (s.withReport err ecode lastop).brush = s.brush := rfl

@[simp] theorem withReport_bvalid : (s.withReport err ecode lastop).status.bvalid = s.status.bvalid := rfl

@[simp] theorem withReport_latchBuild (b : Built) :
    (s.withReport err ecode lastop).latchBuild b = (s.latchBuild b).withReport err ecode lastop := rfl

@[simp] theorem withReport_latchPixel (p : Pixel) :
    (s.withReport err ecode lastop).latchPixel p = (s.latchPixel p).withReport err ecode lastop := rfl

@[simp] theorem withReport_latchRom (v : Word) :
    (s.withReport err ecode lastop).latchRom v = (s.latchRom v).withReport err ecode lastop := rfl

/-! The end of a command, success or rejection, overwrites it. -/

@[simp] theorem withReport_succeed (op : BitVec 3) : (s.withReport err ecode lastop).succeed op = s.succeed op := rfl

@[simp] theorem withReport_reject (e : ErrorCode) (op : BitVec 3) :
    (s.withReport err ecode lastop).reject e op = s.reject e op := rfl

/-- A plotted pixel overwrites the report before its write goes out. -/
@[simp] theorem withReport_plotPixel (op : BitVec 3) (b : Built) (x y : Coord) (px : Pixel) :
    (s.withReport err ecode lastop).plotPixel op b x y px = s.plotPixel op b x y px := by
  rw [State.plotPixel, withReport_latchBuild, withReport_latchPixel, withReport_succeed, State.plotPixel]

/-- No command's answer depends on the report it finds. -/
theorem exec_withReport (i : Instr) : exec i (s.withReport err ecode lastop) = exec i s := by
  cases i with
  | build r g b => rw [exec_build, withReport_latchBuild, withReport_succeed, exec_build]
  | plot x y r g b => rw [exec_plot, withReport_plotPixel, exec_plot]
  | plots x y r g b => rw [exec_plots, withReport_plotPixel, exec_plots]
  | sample x y =>
    rw [exec_sample, withReport_bvalid, withReport_brush, withReport_latchPixel, withReport_succeed,
      withReport_reject, exec_sample]
  | romrd lvl => rw [exec_romrd, withReport_latchRom, withReport_succeed, exec_romrd]

/-- Nor does any word's: a command overwrites the report (`exec_withReport`), and so does a rejection. -/
theorem complete_withReport (w : CommandWord) : (s.withReport err ecode lastop).complete w = s.complete w := by
  cases hd : decode w with
  | command i => rw [complete_of_decode_command hd, exec_withReport, complete_of_decode_command hd]
  | illegalOp =>
    rw [complete_of_decode_illegalOp _ hd, withReport_reject, complete_of_decode_illegalOp s hd]
  | rsvNonzero =>
    rw [complete_of_decode_rsvNonzero _ hd, withReport_reject, complete_of_decode_rsvNonzero s hd]

end WithReport

/-- Settles O39: the report of the last command enters no word's outcome (`complete_withReport`). -/
theorem noErrorStatePersists : Obligations.NoErrorStatePersists :=
  fun s err ecode lastop w => complete_withReport s err ecode lastop w

end Sys2Proof.Machine
end

section
/-! Encoding and assembling: the decoder reads back the encoder's word, the encoder restores a word's used bits
(30_encoding.md R80 to R85), and the assembler writes each operand in its field (R90). -/

namespace Sys2Proof

/-! ## The fields of the encoder's word -/

/-- The encoder writes `RSV` as 0 (R90). -/
theorem fieldRsv_encode (i : Instr) : fieldRsv (encode i) = 0 := by
  cases i <;> exact fieldRsv_packFields ..

/-- The encoder writes the command's `OP`. -/
theorem fieldOp_encode (i : Instr) : fieldOp (encode i) = i.mnemonic.op := by
  cases i <;> exact fieldOp_packFields ..

/-- The byte of a level holds it in its low half. -/
theorem levelByte_low (lvl : Level) : ((0 : BitVec 4) ++ lvl : BitVec 8).extractLsb' 0 4 = lvl := by
  apply BitVec.eq_of_toNat_eq
  have hl := lvl.isLt
  rw [extract_toNat, append_toNat]
  omega

/-- The byte of a level in range is the level as a byte. -/
theorem levelByte_ofNat {lvl : Nat} (h : lvl ≤ 15) :
    ((0 : BitVec 4) ++ BitVec.ofNat 4 lvl : BitVec 8) = .ofNat 8 lvl := by
  apply BitVec.eq_of_toNat_eq
  rw [append_toNat, BitVec.toNat_ofNat, BitVec.toNat_ofNat, show (0 : BitVec 4).toNat = 0 from rfl]
  omega

/-- The encoder writes each operand in its field. -/
theorem commandAt_encode (i : Instr) : commandAt i.mnemonic (encode i) = i := by
  cases i with
  | build r g b =>
    simp only [Instr.mnemonic, commandAt, encode, fieldRed_packFields, fieldGreen_packFields, fieldBlue_packFields]
  | plot x y r g b | plots x y r g b =>
    simp only [Instr.mnemonic, commandAt, encode, fieldX_packFields, fieldY_packFields, fieldRed_packFields,
      fieldGreen_packFields, fieldBlue_packFields]
  | sample x y => simp only [Instr.mnemonic, commandAt, encode, fieldX_packFields, fieldY_packFields]
  | romrd lvl => simp only [Instr.mnemonic, commandAt, encode, fieldLevel_eq, fieldBlue_packFields, levelByte_low]

/-- Settles O1: the encoder's word has a zero `RSV`, the command's `OP` and its operands in their fields, which is what
the decoder reads (`decode_eq_command_iff`). -/
theorem decodeInvertsEncode : Obligations.DecodeInvertsEncode := fun i =>
  decode_eq_command_iff.mpr ⟨fieldRsv_encode i, fieldOp_encode i, commandAt_encode i⟩

/-! ## A word from its fields -/

/-- A word is its seven fields packed (R80). -/
theorem packFields_fields (w : CommandWord) :
    packFields (fieldY w) (fieldX w) (fieldRed w) (fieldGreen w) (fieldBlue w) (fieldRsv w) (fieldOp w) = w := by
  apply BitVec.eq_of_toNat_eq
  rw [packFields_toNat, fieldY_toNat, fieldX_toNat, fieldRed_toNat, fieldGreen_toNat, fieldBlue_toNat, fieldRsv_toNat,
    fieldOp_toNat]
  omega

/-- The fields a command reads, all ones; of ROMRD's `B` the lower half (R85). -/
def usedFields : Mnemonic → CommandWord
  | .build => packFields 0 0 (.allOnes 8) (.allOnes 8) (.allOnes 8) (.allOnes 5) (.allOnes 3)
  | .plot => packFields (.allOnes 16) (.allOnes 16) (.allOnes 8) (.allOnes 8) (.allOnes 8) (.allOnes 5) (.allOnes 3)
  | .plots => packFields (.allOnes 16) (.allOnes 16) (.allOnes 8) (.allOnes 8) (.allOnes 8) (.allOnes 5) (.allOnes 3)
  | .sample => packFields (.allOnes 16) (.allOnes 16) 0 0 0 (.allOnes 5) (.allOnes 3)
  | .romrd => packFields 0 0 0 0 ((0 : BitVec 4) ++ BitVec.allOnes 4) (.allOnes 5) (.allOnes 3)

theorem usedBits_eq (m : Mnemonic) : usedBits m = usedFields m := by
  cases m <;> decide

/-- The lower half of the blue byte is the level's byte. -/
theorem fieldBlue_and_lowerHalf (w : CommandWord) :
    fieldBlue w &&& ((0 : BitVec 4) ++ BitVec.allOnes 4 : BitVec 8) = (0 : BitVec 4) ++ fieldLevel w := by
  have hblue : fieldBlue w = (fieldBlue w).extractLsb' 4 4 ++ fieldLevel w := by
    apply BitVec.eq_of_toNat_eq
    have hb := (fieldBlue w).isLt
    rw [append_toNat, fieldLevel_eq, extract_toNat, extract_toNat]
    omega
  rw [hblue]
  exact BitVec.and_append.trans (by rw [BitVec.and_allOnes, BitVec.ofNat_eq_ofNat, BitVec.and_zero])

/-- The encoder's word of the command a word names is the word on the command's used bits, where `RSV` is 0. -/
theorem encode_commandAt {m : Mnemonic} {w : CommandWord} (hrsv : fieldRsv w = 0) (hop : fieldOp w = m.op) :
    encode (commandAt m w) = w &&& usedBits m := by
  conv_rhs => rw [← packFields_fields w, hrsv, hop, usedBits_eq]
  cases m with
  | romrd =>
    rw [commandAt, encode, usedFields, packFields_and, fieldBlue_and_lowerHalf]
    simp only [BitVec.and_allOnes, BitVec.ofNat_eq_ofNat, BitVec.and_zero, Mnemonic.op]
  | build | plot | plots | sample =>
    simp only [commandAt, encode, usedFields, packFields_and, BitVec.and_allOnes, BitVec.ofNat_eq_ofNat,
      BitVec.and_zero, Mnemonic.op]

/-- Settles O2: a decoded command is `commandAt` its mnemonic, whose word is restored by `encode_commandAt`. -/
theorem encodeRestoresUsedBits : Obligations.EncodeRestoresUsedBits := by
  intro w i hd
  obtain ⟨hrsv, hop, hi⟩ := decode_eq_command_iff.mp hd
  rw [← encode_commandAt hrsv hop, hi]

end Sys2Proof

namespace Sys2Proof.Machine

/-! ## The assembler (30_encoding.md R90) -/

@[simp] theorem wellFormed_mk (m : Mnemonic) (ns : List Nat) :
    AsmCommand.wellFormed ⟨m, ns⟩ = operandsFit m.operandKinds ns := rfl

@[simp] theorem operandsFit_nil : operandsFit [] [] = true := rfl

@[simp] theorem operandsFit_cons (k : OperandKind) (ks : List OperandKind) (n : Nat) (ns : List Nat) :
    operandsFit (k :: ks) (n :: ns) = true ↔ k.admits n = true ∧ operandsFit ks ns = true := Bool.and_eq_true_iff

@[simp] theorem admits_channel (n : Nat) : OperandKind.channel.admits n = true ↔ n ≤ 255 := decide_eq_true_iff

@[simp] theorem admits_coord (n : Nat) : OperandKind.coord.admits n = true ↔ n ≤ 65535 := decide_eq_true_iff

@[simp] theorem admits_level (n : Nat) : OperandKind.level.admits n = true ↔ n ≤ 15 := decide_eq_true_iff

/-- Fields written from numbers in range are the number with each operand shifted to its field; `Y` is the top field,
so of it the word holds what fits. -/
theorem packFields_ofNat {y x r g b : Nat} (hx : x ≤ 65535) (hr : r ≤ 255) (hg : g ≤ 255)
    (hb : b ≤ 255) (op : BitVec 3) :
    packFields (.ofNat 16 y) (.ofNat 16 x) (.ofNat 8 r) (.ofNat 8 g) (.ofNat 8 b) 0 op =
      BitVec.ofNat 64 (op.toNat + b * 2 ^ 8 + g * 2 ^ 16 + r * 2 ^ 24 + x * 2 ^ 32 + y * 2 ^ 48) := by
  have hop := op.isLt
  apply BitVec.eq_of_toNat_eq
  rw [packFields_toNat, show (0 : BitVec 5).toNat = 0 from rfl]
  simp only [BitVec.toNat_ofNat]
  omega

/-- A line that fits its mnemonic is assembled to the encoder's word. -/
theorem assemble_of_fits {c : AsmCommand} {i : Instr} (hfits : c.wellFormed = true) (hi : operandsInstr c = some i) :
    assemble c = some (encode i) := by
  rw [assemble, if_pos hfits, hi, Option.map_some]

/-- A line that does not fit its mnemonic is refused. -/
theorem assemble_of_not_fits {c : AsmCommand} (hfits : ¬ c.wellFormed = true) : assemble c = none := if_neg hfits

/-- The assembler's answer by the check it makes: the word of the operands, or a refusal. -/
theorem assemble_eq_ite {c : AsmCommand} {i : Instr} {fits : Prop} [Decidable fits] {word : CommandWord}
    (hi : operandsInstr c = some i) (hfits : c.wellFormed = true ↔ fits) (hword : fits → encode i = word) :
    assemble c = if fits then some word else none := by
  split
  · next h => rw [assemble_of_fits (hfits.mpr h) hi, hword h]
  · next h => exact assemble_of_not_fits fun hwf => h (hfits.mp hwf)

/-- Settles O7: a line is assembled exactly where its operands fit (`assemble_eq_ite`), and then to the number with each
operand shifted to its field (`packFields_ofNat`). -/
theorem assemblerWritesFieldsOrRefuses : Obligations.AssemblerWritesFieldsOrRefuses := by
  refine ⟨fun r g b => ?build, fun x y r g b => ?plot, fun x y r g b => ?plots, fun x y => ?sample,
    fun lvl => ?romrd⟩
  case build =>
    refine assemble_eq_ite rfl (by simp [Mnemonic.operandKinds]) fun ⟨hr, hg, hb⟩ => ?_
    exact (packFields_ofNat (y := 0) (Nat.zero_le _) hr hg hb 0).trans (by simp)
  case plot =>
    refine assemble_eq_ite rfl (by simp [Mnemonic.operandKinds]) fun ⟨hx, _, hr, hg, hb⟩ => ?_
    exact packFields_ofNat hx hr hg hb 1
  case plots =>
    refine assemble_eq_ite rfl (by simp [Mnemonic.operandKinds]) fun ⟨hx, _, hr, hg, hb⟩ => ?_
    exact packFields_ofNat hx hr hg hb 2
  case sample =>
    refine assemble_eq_ite rfl (by simp [Mnemonic.operandKinds]) fun ⟨hx, _⟩ => ?_
    exact (packFields_ofNat (y := y) hx (Nat.zero_le _) (Nat.zero_le _) (Nat.zero_le _) 3).trans (by simp)
  case romrd =>
    refine assemble_eq_ite rfl (by simp [Mnemonic.operandKinds]) fun hl => ?_
    rw [encode, levelByte_ofNat hl]
    exact (packFields_ofNat (y := 0) (Nat.zero_le _) (Nat.zero_le _) (Nat.zero_le _) (by omega) 4).trans (by simp)

/-- Settles O6: the table of R93, by evaluation of the assembler and the decoder. -/
theorem workedEncodings : Obligations.WorkedEncodings := by
  unfold Obligations.WorkedEncodings
  decide

end Sys2Proof.Machine
end

section
/-! The invariant (10_state.md R24 to R33, R40; 20_memory.md R52; 70_reset_and_hazards.md R241, R245): it holds after
reset, what the environment does keeps it, and so does each of the things the block's part of a step can be. -/

namespace Sys2Proof.Machine

/-! ## `STATUS` (10_state.md R31, R33) -/

/-- `HIGH` and `PVALID` stand only with `BVALID` (10_state.md R31). -/
def Status.flagsValid (st : Status) : Prop :=
  (st.high = true → st.bvalid = true) ∧ (st.pvalid = true → st.bvalid = true)

theorem Status.consistent.flagsValid {st : Status} (h : st.consistent) : st.flagsValid := by
  obtain ⟨-, -, -, -, -, -, hhigh, hpvalid⟩ := h
  exact ⟨hhigh, hpvalid⟩

/-- With a valid brush every flag may stand. -/
theorem Status.flagsValid_of_bvalid {st : Status} (h : st.bvalid = true) : st.flagsValid :=
  ⟨fun _ => h, fun _ => h⟩

/-- The report of a success with a legal `OP` is consistent. -/
theorem Status.succeeded_consistent {st : Status} (h : st.flagsValid) {op : BitVec 3} (hop : op.toNat ≤ 4) :
    (st.succeeded op).consistent :=
  ⟨by simp, by simp, fun _ => hop, by simp, by simp, by simp, h⟩

/-- What a rejection says of the rejected word and the brush (60_exceptions.md R212 to R214). -/
def ErrorCode.fits (op : BitVec 3) (bvalid : Bool) : ErrorCode → Prop
  | .illegalOp => 5 ≤ op.toNat
  | .rsvNonzero => op.toNat ≤ 4
  | .noBrush => op = 3 ∧ bvalid = false

@[simp] theorem ErrorCode.bits_illegalOp : ErrorCode.illegalOp.bits = 1 := rfl
@[simp] theorem ErrorCode.bits_rsvNonzero : ErrorCode.rsvNonzero.bits = 2 := rfl
@[simp] theorem ErrorCode.bits_noBrush : ErrorCode.noBrush.bits = 3 := rfl

/-- The report of a rejection that fits its word is consistent. -/
theorem Status.rejected_consistent {st : Status} (h : st.flagsValid) {e : ErrorCode} {op : BitVec 3}
    (hfits : e.fits op st.bvalid) : (st.rejected e op).consistent := by
  cases e with
  | illegalOp => exact ⟨by simp, by simp, by simp, fun _ => hfits, by simp, by simp, h⟩
  | rsvNonzero => exact ⟨by simp, by simp, by simp, by simp, fun _ => hfits, by simp, h⟩
  | noBrush => exact ⟨by simp, by simp, by simp, by simp, by simp, fun _ => hfits, h⟩

/-! ## Parts of the invariant that hold where nothing is valid, open or waiting -/

theorem brushBuilt_of_invalid {s : State} (h : s.status.bvalid = false) : s.brushBuilt := fun hbvalid =>
  absurd hbvalid (by simp [h])

theorem rdataRead_of_invalid {s : State} (h : s.status.rvalid = false) : s.rdataRead := fun hrvalid =>
  absurd hrvalid (by simp [h])

theorem unsettledRecorded_of_settled {s : State} (h : s.unsettled = false) : s.unsettledRecorded := fun hopen =>
  absurd hopen (by simp [h])

theorem requestLatched_of_no_request {s : State} (h : ∀ req : FbRequest, s.phase ≠ .fbwait req) :
    s.requestLatched := fun req hreq => absurd hreq (h req)

/-- With the block in `IDLE` nothing waits on the port and nothing is busy, so the rest of the invariant is enough. -/
theorem inv_of_idle {s : State} (hidle : s.phase = .idle) (hfb : framebufferWf s.fb) (hstatus : s.status.consistent)
    (hbrush : s.brushBuilt) (hrdata : s.rdataRead) (hunsettled : s.unsettledRecorded) : s.Inv := by
  exact ⟨hfb, hstatus, hbrush, hrdata, requestLatched_of_no_request fun req => by simp [hidle],
    fun hbusy => absurd hidle hbusy, hunsettled⟩

/-- After reset no result is valid. -/
theorem reset_consistent : Status.reset.consistent := by
  unfold Status.consistent
  decide

/-- Settles O60: the planes are empty and nothing is valid, reported, waiting or open. -/
theorem resetMeetsTheInvariant : Obligations.ResetMeetsTheInvariant := by
  refine inv_of_idle rfl (fun p => ?_) reset_consistent (brushBuilt_of_invalid rfl) (rdataRead_of_invalid rfl)
    (unsettledRecorded_of_settled rfl)
  cases p <;> rfl

/-! ## What the environment does -/

/-- The other writer's bytes keep the planes canonical. -/
theorem wf_observeOther {s : State} (h : framebufferWf s.fb) : framebufferWf s.observeOther.fb := by
  unfold State.observeOther
  split
  · exact wf_putBytes h _ _
  · exact h

/-- The environment's part of a step keeps the invariant; a violation is recorded as it opens the acceptance. -/
theorem inv_observe {s : State} (h : s.Inv) : s.observe.Inv := by
  obtain ⟨hfb, hstatus, hbrush, hrdata, hrequest, hbusy, hunsettled⟩ := h
  refine ⟨by simpa using wf_observeOther hfb, by simpa using hstatus, ?_, ?_, ?_, ?_, ?_⟩
  · simpa [State.brushBuilt] using hbrush
  · simpa [State.rdataRead] using hrdata
  · simpa [State.requestLatched] using hrequest
  · simpa [State.busyRuns] using hbusy
  · simp only [State.unsettledRecorded, observe_unsettled, observe_faults, Bool.or_eq_true]
    exact Or.imp_left hunsettled

/-- The next inputs are no part of the invariant. -/
theorem inv_advance {s : State} (h : s.Inv) (acc : Bool) : (s.advance acc).Inv := h

/-! ## What a command word does -/

/-- The error response keeps the invariant. -/
theorem inv_reject {s : State} (h : s.Inv) {e : ErrorCode} {op : BitVec 3} (hfits : e.fits op s.status.bvalid) :
    (s.reject e op).Inv := by
  obtain ⟨hfb, hstatus, hbrush, hrdata, -, -, hunsettled⟩ := h
  exact inv_of_idle rfl hfb (Status.rejected_consistent hstatus.flagsValid hfits) hbrush hrdata hunsettled

/-- BUILD leaves the build of its triple. -/
theorem inv_built {s : State} (h : s.Inv) (r g b : Channel) :
    ((s.latchBuild (build rom r g b)).succeed 0#3).Inv := by
  obtain ⟨hfb, -, -, hrdata, -, -, hunsettled⟩ := h
  exact inv_of_idle rfl hfb (Status.succeeded_consistent (Status.flagsValid_of_bvalid rfl) (by decide))
    (fun _ => ⟨r, g, b, rfl, rfl, rfl⟩) hrdata hunsettled

/-- SAMPLE with a valid brush leaves a pixel beside it. -/
theorem inv_sampled {s : State} (h : s.Inv) (hbvalid : s.status.bvalid = true) (px : Pixel) :
    ((s.latchPixel px).succeed 3#3).Inv := by
  obtain ⟨hfb, -, hbrush, hrdata, -, -, hunsettled⟩ := h
  exact inv_of_idle rfl hfb (Status.succeeded_consistent (st := s.status.pixelLatched)
    (Status.flagsValid_of_bvalid hbvalid) (by decide))
    hbrush hrdata hunsettled

/-- ROMRD leaves the entry of its level. -/
theorem inv_romRead {s : State} (h : s.Inv) (lvl : Level) : ((s.latchRom (romAt rom lvl)).succeed 4#3).Inv := by
  obtain ⟨hfb, hstatus, hbrush, -, -, -, hunsettled⟩ := h
  exact inv_of_idle rfl hfb (Status.succeeded_consistent (st := s.status.romRead) hstatus.flagsValid (by decide))
    hbrush (fun _ => ⟨lvl, rfl⟩) hunsettled

/-- PLOT and PLOTS leave the build of their triple and their pixel, committed or on the port. -/
theorem inv_plotPixel {s : State} (h : s.Inv) (hrun : s.boot = .running) {op : BitVec 3} (hop : op = 1 ∨ op = 2)
    (r g b : Channel) (x y : Coord) (px : Pixel) : (s.plotPixel op (build rom r g b) x y px).Inv := by
  obtain ⟨hfb, -, -, hrdata, -, -, hunsettled⟩ := h
  have hstatus : (s.plotPixel op (build rom r g b) x y px).status.consistent := by
    rw [plotPixel_status]
    exact Status.succeeded_consistent (Status.flagsValid_of_bvalid rfl) (by rcases hop with rfl | rfl <;> decide)
  have hbrush : (s.plotPixel op (build rom r g b) x y px).brushBuilt := fun _ => ⟨r, g, b, by simp⟩
  have hrdata' : (s.plotPixel op (build rom r g b) x y px).rdataRead := by
    simpa [State.rdataRead] using hrdata
  have hunsettled' : (s.plotPixel op (build rom r g b) x y px).unsettledRecorded := by
    rw [State.unsettledRecorded, plotPixel_unsettled, (plotPixel_faults_le ..).2]
    exact hunsettled
  cases hready : s.inputs.fbReady with
  | true =>
    obtain ⟨hidle, -, hfb', -⟩ := plotPixel_ready s op (build rom r g b) x y px hready
    exact inv_of_idle hidle (hfb' ▸ wf_fbCommitted hfb _) hstatus hbrush hrdata' hunsettled'
  | false =>
    obtain ⟨hwait, -, hfb', hfaults⟩ := plotPixel_waiting s op (build rom r g b) x y px hready
    refine ⟨hfb' ▸ hfb, hstatus, hbrush, hrdata', fun req hreq => ?_, fun _ => ?_, hunsettled'⟩
    · rw [hwait] at hreq
      cases hreq
      simpa +contextual [hfaults] using hop
    · rw [plotPixel_boot, hrun]

/-- Every command word that completes in a running block keeps the invariant. -/
theorem inv_completed {s t : State} (h : s.Inv) (hrun : s.boot = .running) (hc : Completed s t) : t.Inv := by
  cases hc with
  | built r g b e => exact e ▸ inv_built h r g b
  | plotted x y r g b e => exact e ▸ inv_plotPixel h hrun (.inl rfl) r g b x y _
  | solid x y r g b e => exact e ▸ inv_plotPixel h hrun (.inr rfl) r g b x y _
  | sampled x y hb e => exact e ▸ inv_sampled h hb _
  | noBrush hb e => exact e ▸ inv_reject h (e := .noBrush) ⟨rfl, hb⟩
  | romRead lvl e => exact e ▸ inv_romRead h lvl
  | illegalOp op ho e => exact e ▸ inv_reject h (e := .illegalOp) ho
  | rsvNonzero op ho e => exact e ▸ inv_reject h (e := .rsvNonzero) ho

/-! ## What else the block does -/

/-- The block closes an open acceptance. -/
theorem inv_settled {s : State} (h : s.Inv) : ({ s with unsettled := false } : State).Inv := by
  obtain ⟨hfb, hstatus, hbrush, hrdata, hrequest, hbusy, -⟩ := h
  exact ⟨hfb, hstatus, hbrush, hrdata, hrequest, hbusy, unsettledRecorded_of_settled rfl⟩

/-- A word accepted by a running block waits in `EXEC`. -/
theorem inv_accepted {s : State} (h : s.Inv) (hrun : s.boot = .running) (w : CommandWord) :
    ({ s with unsettled := false, phase := .exec w } : State).Inv := by
  obtain ⟨hfb, hstatus, hbrush, hrdata, -, -, -⟩ := h
  exact ⟨hfb, hstatus, hbrush, hrdata, requestLatched_of_no_request fun req => by simp, fun _ => hrun,
    unsettledRecorded_of_settled rfl⟩

/-- A block that is not running yet is in `IDLE`, wherever its reset sequence goes. -/
theorem inv_boot {s : State} (h : s.Inv) (hboot : s.boot ≠ .running) (boot : Boot) :
    ({ s with boot := boot } : State).Inv := by
  obtain ⟨hfb, hstatus, hbrush, hrdata, -, hbusy, hunsettled⟩ := h
  have hidle : s.phase = .idle := Classical.byContradiction fun hne => hboot (hbusy hne)
  exact inv_of_idle hidle hfb hstatus hbrush hrdata hunsettled

/-- A committed write leaves the block in `IDLE` with canonical planes. -/
theorem inv_commit {s : State} (h : s.Inv) (req : FbRequest) : (s.commit req).Inv := by
  obtain ⟨hfb, hstatus, hbrush, hrdata, -, -, hunsettled⟩ := h
  exact inv_of_idle rfl (wf_fbCommitted hfb req) hstatus hbrush hrdata hunsettled

/-- Reset leaves nothing valid, and the framebuffer and the recorded faults as they are. -/
theorem inv_clear {s : State} (h : s.Inv) : s.clear.Inv := by
  obtain ⟨hfb, -, -, -, -, -, hunsettled⟩ := h
  exact inv_of_idle rfl hfb reset_consistent (brushBuilt_of_invalid rfl) (rdataRead_of_invalid rfl) hunsettled

/-- Reset asserted in any phase, whether or not a waiting write is still committed. -/
theorem inv_assertReset {s : State} (h : s.Inv) : s.assertReset.Inv := by
  refine inv_clear ?_
  rcases withdraw_cases s with hkept | ⟨req, -, -, hcommitted⟩
  · rwa [hkept]
  · rw [hcommitted]
    exact inv_commit h req

/-- Settles O59: the environment's part keeps the invariant (`inv_observe`), and so does each thing the block's part of
a step can be (`step_cases`), by the lemma about its operation. -/
theorem stepKeepsTheInvariant : Obligations.StepKeepsTheInvariant := by
  intro s t h hstep
  have hu := inv_observe h
  cases step_cases hstep with
  | reset _ e => exact e ▸ inv_advance (inv_assertReset hu) _
  | boot _ hb e => exact e ▸ inv_advance (inv_boot hu hb _) _
  | wait _ _ _ _ e => exact e ▸ inv_advance (inv_settled hu) _
  | accept w _ hb _ _ _ e => exact e ▸ inv_advance (inv_accepted hu hb w) _
  | transact w v _ hb _ _ _ hc e => exact e ▸ inv_advance (inv_completed (inv_settled hu) hb (complete_cases hc)) _
  | complete w v _ hb _ _ hc e => exact e ▸ inv_advance (inv_completed hu hb (complete_cases hc)) _
  | compute w _ _ _ _ e => exact e ▸ inv_advance hu _
  | commit req _ _ _ _ e => exact e ▸ inv_advance (inv_commit hu req) _
  | hold req _ _ _ _ _ e => exact e ▸ inv_advance hu _

end Sys2Proof.Machine
end

section
/-! The brush builder's levels and planes: bounds and monotony of the levels (41_brush_builder.md R132 to R137), the
planes of a build as entries of the table, and what follows of their densities (R151 to R156; 40_tables.md R125). -/

namespace Sys2Proof.Machine

/-! ## Readings of the intensity level (41_brush_builder.md R132) -/

/-- The level's bits are the complemented bits 6:3 of the value. -/
theorem intensityLevel_getLsbD (v : Channel) {i : Nat} (hi : i < 4) :
    (intensityLevel v).getLsbD i = !v.getLsbD (3 + i) := by
  have h8 : 3 + i < 8 := by omega
  simp [intensityLevel, hi, h8]

/-- Whatever word holds those bits in its low nibble, the nibble is the level. -/
theorem intensityLevel_setWidth {n : Nat} (v : Channel) {x : BitVec n}
    (hx : ∀ i < 4, x.getLsbD i = !v.getLsbD (3 + i)) : (intensityLevel v).setWidth n = x &&& 0xF#n := by
  refine BitVec.eq_of_getLsbD_eq fun i hi => ?_
  have hmask : (0xF#n).getLsbD i = decide (i < 4) := by
    rw [BitVec.getLsbD_ofNat, show 15 = 2 ^ 4 - 1 from rfl, Nat.testBit_two_pow_sub_one]
    simp [hi]
  rw [BitVec.getLsbD_setWidth, BitVec.getLsbD_and, hmask, decide_eq_true hi, Bool.true_and]
  by_cases h4 : i < 4
  · rw [intensityLevel_getLsbD v h4, hx i h4, decide_eq_true h4, Bool.and_true]
  · rw [BitVec.getLsbD_of_ge _ _ (by omega), decide_eq_false h4, Bool.and_false]

/-- Bits 6:3 of the complement do not depend on the width it is taken at. -/
theorem not_setWidth_getLsbD {n : Nat} (hn : 8 ≤ n) (v : Channel) {i : Nat} (hi : i < 4) :
    (~~~v.setWidth n).getLsbD (3 + i) = !v.getLsbD (3 + i) := by
  have hin : 3 + i < n := by omega
  simp [hin]

/-- The source's expression with a logical shift, at any width of 8 or more. -/
theorem intensityLevel_ushiftRight {n : Nat} (hn : 8 ≤ n) (v : Channel) :
    (intensityLevel v).setWidth n = ((~~~v.setWidth n) >>> 3) &&& 0xF#n := by
  refine intensityLevel_setWidth v fun i hi => ?_
  rw [BitVec.getLsbD_ushiftRight, not_setWidth_getLsbD hn v hi]

/-- The source's expression with an arithmetic shift, at any width of 8 or more. -/
theorem intensityLevel_sshiftRight {n : Nat} (hn : 8 ≤ n) (v : Channel) :
    (intensityLevel v).setWidth n = ((~~~v.setWidth n).sshiftRight 3) &&& 0xF#n := by
  refine intensityLevel_setWidth v fun i hi => ?_
  rw [BitVec.getLsbD_sshiftRight, if_pos (by omega), not_setWidth_getLsbD hn v hi,
    decide_eq_false (by omega), Bool.not_false, Bool.true_and]

/-- In the high branch the level is 15 less the steps of 8 above 128. -/
theorem intensityLevel_toNat_high {v : Channel} (h : 127 < v.toNat) :
    (intensityLevel v).toNat = 15 - (v.toNat - 128) / 8 := by
  have hv := v.isLt
  rw [intensityLevel_toNat]
  omega

/-- Settles O10: the source's expression gives the level at every width (`intensityLevel_ushiftRight` and
`intensityLevel_sshiftRight`). -/
theorem intensityLevelReadings : Obligations.IntensityLevelReadings := by
  intro v hv
  have hlogical := intensityLevel_ushiftRight (Nat.le_refl 8) v
  have harithmetic := intensityLevel_sshiftRight (Nat.le_refl 8) v
  rw [BitVec.setWidth_eq v] at hlogical harithmetic
  exact ⟨intensityLevel_toNat v, intensityLevel_toNat_high hv, hlogical, harithmetic,
    intensityLevel_ushiftRight (by decide) v, intensityLevel_sshiftRight (by decide) v,
    intensityLevel_ushiftRight (by decide) v, intensityLevel_sshiftRight (by decide) v⟩

/-! ## The chrominance level (41_brush_builder.md R134, R137) -/

/-- A channel of at most the value has a quotient below 16. -/
theorem chromaQuotient_le {v c : Nat} (h : c ≤ v) : c * 16 / (v + 8) ≤ 15 := by
  have hlt : c * 16 / (v + 8) < 16 := Nat.div_lt_of_lt_mul (by omega)
  omega

/-- From 120 on the channel equal to the value has quotient 15. -/
theorem chromaQuotient_self {v : Nat} (h : 120 ≤ v) : v * 16 / (v + 8) = 15 :=
  Nat.le_antisymm (chromaQuotient_le (Nat.le_refl v)) ((Nat.le_div_iff_mul_le (by omega)).mpr (by omega))

/-- The quotient fits its 4 bits, so the level is the exact quotient. -/
theorem highLevel_toNat_exact {v c : Channel} (h : c.toNat ≤ v.toNat) :
    (highLevel v c).toNat = c.toNat * 16 / (v.toNat + 8) := by
  rw [highLevel_toNat, Nat.mod_eq_of_lt (Nat.lt_succ_of_le (chromaQuotient_le h))]

theorem highLevel_self {v c : Channel} (h : 120 ≤ v.toNat) (hc : c.toNat = v.toNat) : highLevel v c = 15 := by
  rw [← BitVec.toNat_inj, highLevel_toNat_exact (Nat.le_of_eq hc), hc, chromaQuotient_self h]
  rfl

/-- Settles O11: the quotient of a channel of at most `v` fits 4 bits (`chromaQuotient_le`), and it is 15 for `v`
itself (`chromaQuotient_self`). -/
theorem chrominanceLevelIsExactQuotient : Obligations.ChrominanceLevelIsExactQuotient := by
  refine ⟨fun v c hv hc => ?_, fun v hv => ?_⟩
  · have hvlt := v.isLt
    exact ⟨highLevel_toNat_exact hc, chromaQuotient_le hc, by omega, by omega, by omega,
      congrArg BitVec.toNat (highLevel_self (by omega) rfl)⟩
  · rw [Nat.mul_comm, chromaQuotient_self hv]

/-- The level of a channel in the branch of its value. -/
def chromaLevel (v c : Channel) : Level :=
  if highBranch v then highLevel v c else lowLevel c

theorem chromaLevel_of_high {v : Channel} (h : 127 < v.toNat) (c : Channel) : chromaLevel v c = highLevel v c := by
  rw [chromaLevel, highBranch_eq, if_pos (decide_eq_true h)]

theorem chromaLevel_of_low {v : Channel} (h : v.toNat ≤ 127) (c : Channel) : chromaLevel v c = lowLevel c := by
  rw [chromaLevel, highBranch_eq, decide_eq_false (by omega), if_neg Bool.false_ne_true]

/-- In the high branch a larger channel has at least the level. -/
theorem highLevel_mono {v c c' : Channel} (h : c.toNat ≤ c'.toNat) (hv : c'.toNat ≤ v.toNat) :
    (highLevel v c).toNat ≤ (highLevel v c').toNat := by
  rw [highLevel_toNat_exact (h.trans hv), highLevel_toNat_exact hv]
  exact Nat.div_le_div_right (Nat.mul_le_mul_right 16 h)

/-- And so in the low branch. -/
theorem lowLevel_mono {c c' : Channel} (h : c.toNat ≤ c'.toNat) (hv : c'.toNat ≤ 127) :
    (lowLevel c).toNat ≤ (lowLevel c').toNat := by
  rw [lowLevel_toNat, lowLevel_toNat]
  omega

theorem chromaLevel_mono {v c c' : Channel} (h : c.toNat ≤ c'.toNat) (hv : c'.toNat ≤ v.toNat) :
    (chromaLevel v c).toNat ≤ (chromaLevel v c').toNat := by
  by_cases hhigh : 127 < v.toNat
  · rw [chromaLevel_of_high hhigh, chromaLevel_of_high hhigh]
    exact highLevel_mono h hv
  · have hlow : v.toNat ≤ 127 := by omega
    rw [chromaLevel_of_low hlow, chromaLevel_of_low hlow]
    exact lowLevel_mono h (hv.trans hlow)

/-! ## The planes of a build (41_brush_builder.md R133 to R138) -/

section Planes

variable (table : Rom) (r g b : Channel)

theorem build_red : (build table r g b).brush.red = romAt table (chromaLevel (value r g b) r) := by
  simp only [build, chromaLevel]
  split <;> rfl

theorem build_green : (build table r g b).brush.green = romAt table (chromaLevel (value r g b) g) := by
  simp only [build, chromaLevel]
  split <;> rfl

theorem build_blue : (build table r g b).brush.blue = romAt table (chromaLevel (value r g b) b) := by
  simp only [build, chromaLevel]
  split <;> rfl

variable {r g b}

theorem build_intensity_of_high (h : 127 < valueNat r g b) :
    (build table r g b).brush.intensity = ~~~romAt table (intensityLevel (value r g b)) := by
  rw [build_of_high table h, highBrush]

theorem build_intensity_of_low (h : valueNat r g b ≤ 127) : (build table r g b).brush.intensity = 0 := by
  rw [build_of_low table h, lowBrush_eq]

end Planes

/-- Triples of one value as numbers have one value. -/
theorem value_eq_of_valueNat_eq {r g b r' g' b' : Channel} (h : valueNat r g b = valueNat r' g' b') :
    value r g b = value r' g' b' := by
  rw [← BitVec.toNat_inj, value_toNat, value_toNat, h]

/-- Each channel is at most the value. -/
theorem channels_le_value (r g b : Channel) :
    r.toNat ≤ (value r g b).toNat ∧ g.toNat ≤ (value r g b).toNat ∧ b.toNat ≤ (value r g b).toNat := by
  rw [value_toNat]
  exact channels_le_of_valueNat_le (Nat.le_refl _)

/-- A larger level of the machine's ROM is at least as dense. -/
theorem tileDensity_chromaLevel_mono {v c c' : Channel} (h : c.toNat ≤ c'.toNat) (hv : c'.toNat ≤ v.toNat) :
    tileDensity (romAt rom (chromaLevel v c)) ≤ tileDensity (romAt rom (chromaLevel v c')) :=
  romLegal_mono rom_legal _ _ (chromaLevel_mono h hv)

/-- Settles O17: each plane is the entry of its channel's level, which grows with the channel (`chromaLevel_mono`), and
the ROM's density with the level. -/
theorem densityGrowsWithTheChannel : Obligations.DensityGrowsWithTheChannel := by
  refine fun r g b c => ⟨fun hv hle => ?red, fun hv hle => ?green, fun hv hle => ?blue, lowLevel_mono,
    fun hle hb _ => highLevel_mono hle hb⟩
  case red =>
    rw [build_red, build_red, ← value_eq_of_valueNat_eq hv]
    obtain ⟨hc, -, -⟩ := channels_le_value c g b
    exact tileDensity_chromaLevel_mono hle hc
  case green =>
    rw [build_green, build_green, ← value_eq_of_valueNat_eq hv]
    obtain ⟨-, hc, -⟩ := channels_le_value r c b
    exact tileDensity_chromaLevel_mono hle hc
  case blue =>
    rw [build_blue, build_blue, ← value_eq_of_valueNat_eq hv]
    obtain ⟨-, -, hc⟩ := channels_le_value r g c
    exact tileDensity_chromaLevel_mono hle hc

/-- In the high branch a channel equal to the value has the level 15. -/
theorem chromaLevel_self {r g b c : Channel} (h : 127 < valueNat r g b) (hc : c.toNat = valueNat r g b) :
    chromaLevel (value r g b) c = 15 := by
  rw [← value_toNat] at h hc
  rw [chromaLevel_of_high h, highLevel_self (by omega) hc]

/-- Settles O15: the channel equal to `v` has level 15 (`chromaLevel_self`), whose entry is all-on; of (255,0,0) the
other channels have level 0, and so has the complemented intensity. -/
theorem valueChannelPlaneIsFull : Obligations.ValueChannelPlaneIsFull := by
  refine ⟨fun r g b h => ⟨fun hb => ?_, fun hg => ?_, fun hr => ?_⟩, ?_⟩
  · rw [build_blue, chromaLevel_self h hb, romAt_fifteen rom_legal]
  · rw [build_green, chromaLevel_self h hg, romAt_fifteen rom_legal]
  · rw [build_red, chromaLevel_self h hr, romAt_fifteen rom_legal]
  · have hlevels : highBrush rom 255 0 0 = ⟨romAt rom 0, romAt rom 0, romAt rom 15, ~~~romAt rom 0⟩ := rfl
    rw [build_of_high rom (by decide), hlevels, romAt_zero rom_legal, romAt_fifteen rom_legal]
    rfl

/-! ## The palette index (40_tables.md R125) -/

/-- Settles O13: in the high branch a channel has its top bit set, in the low branch the index is that of the fallback
or at most 7. -/
theorem brightBlackReachability : Obligations.BrightBlackReachability := by
  intro table r g b
  have hindex : (build table r g b).bidx = 0x8 ↔ (build table r g b).bidx.toNat = 8 := BitVec.toNat_inj.symm
  rw [hindex]
  by_cases hhigh : 127 < valueNat r g b
  · rw [build_of_high table hhigh, paletteIndex_true_toNat]
    unfold valueNat at hhigh ⊢
    omega
  · have hlow : valueNat r g b ≤ 127 := by omega
    obtain ⟨hr, hg, hb⟩ := channels_le_of_valueNat_le hlow
    rw [build_of_low table hlow, paletteIndex_false_toNat hlow]
    split
    · next hfallback => simp [hfallback, hhigh]
    · next hfallback => simp only [hfallback, iff_false]; omega

/-! ## The intensity plane (41_brush_builder.md R152, R154) -/

/-- A word's complement has the tile positions the word has not. -/
theorem tileDensity_not (w : Word) : tileDensity (~~~w) = 16 - tileDensity w := by
  have hnot : tileDensity (~~~w) = tilePositions.countP (fun n => !w.getLsbD n) := by
    refine List.countP_congr fun n hn => ?_
    obtain ⟨r, hr, c, hc, rfl⟩ := mem_tilePositions.mp hn
    have hlt : 8 * r + c < 32 := by omega
    simp [hlt]
  have hsplit : tilePositions.length = tileDensity w + tilePositions.countP (fun n => !w.getLsbD n) := by
    simpa [tileDensity] using List.length_eq_countP_add_countP (fun n => w.getLsbD n) (l := tilePositions)
  have hlen : tilePositions.length = 16 := rfl
  omega

/-- A complement is empty where the word is all-on. -/
theorem not_ne_zero_iff (w : Word) : ~~~w ≠ 0 ↔ w ≠ 0xFFFFFFFF := by
  rw [not_iff_not]
  exact BitVec.not_eq_comm

theorem intensityLevel_value {r g b : Channel} (h : 127 < valueNat r g b) :
    (intensityLevel (value r g b)).toNat = 15 - (valueNat r g b - 128) / 8 := by
  rw [intensityLevel_toNat_high (by rwa [value_toNat]), value_toNat]

theorem intensityLevel_eq_fifteen {r g b : Channel} (h : 127 < valueNat r g b) (hv : valueNat r g b ≤ 135) :
    intensityLevel (value r g b) = 15 := by
  rw [← BitVec.toNat_inj, intensityLevel_value h]
  change _ = 15
  omega

theorem intensityLevel_eq_zero {r g b : Channel} (hv : 248 ≤ valueNat r g b) :
    intensityLevel (value r g b) = 0 := by
  have hlt := (value r g b).isLt
  rw [value_toNat] at hlt
  rw [← BitVec.toNat_inj, intensityLevel_value (by omega)]
  change _ = 0
  omega

theorem intensityLevel_le_fourteen {r g b : Channel} (hv : 136 ≤ valueNat r g b) :
    (intensityLevel (value r g b)).toNat ≤ 14 := by
  rw [intensityLevel_value (by omega)]
  omega

/-- In the high branch the plane has what its entry leaves of the tile. -/
theorem tileDensity_intensity (table : Rom) {r g b : Channel} (h : 127 < valueNat r g b) :
    tileDensity (build table r g b).brush.intensity =
      16 - tileDensity (romAt table (intensityLevel (value r g b))) := by
  rw [build_intensity_of_high table h, tileDensity_not]

/-- Settles O16: up to 135 the level is 15, whose entry is all-on; from 136 on the level is at most 14, and the plane,
its entry's complement, is 0 only under an all-on entry, which a strict table has at level 15 alone. -/
theorem intensityNearTheThreshold : Obligations.IntensityNearTheThreshold := by
  refine ⟨fun r g b hv hv' => ?_, fun r g b hv => ⟨intensityLevel_le_fourteen hv, ?_⟩,
    fun table r g b hlegal hv => ?_⟩
  · have hlevel := intensityLevel_eq_fifteen hv hv'
    refine ⟨hlevel, ?_⟩
    rw [build_intensity_of_high rom hv, hlevel, romAt_fifteen rom_legal]
    rfl
  · rw [build_intensity_of_high rom (by omega), not_ne_zero_iff]
  · obtain ⟨-, hbelow⟩ := romLegal_strictlyDenser hlegal
    rw [build_intensity_of_high table (by omega), not_ne_zero_iff]
    exact (hbelow _ (intensityLevel_le_fourteen hv)).2

/-- Settles O18: the level falls as `v` grows, the ROM's density with it, and the plane has the rest of the tile
(`tileDensity_intensity`). -/
theorem intensityGrowsWithTheValue : Obligations.IntensityGrowsWithTheValue := by
  intro r g b r' g' b' h hle
  have h' : 127 < valueNat r' g' b' := by omega
  have hlevel : (intensityLevel (value r' g' b')).toNat ≤ (intensityLevel (value r g b)).toNat := by
    rw [intensityLevel_value h, intensityLevel_value h']
    omega
  rw [tileDensity_intensity rom h, tileDensity_intensity rom h']
  refine ⟨hlevel, rfl, Nat.sub_le_sub_left (romLegal_mono rom_legal _ _ hlevel) 16, fun hv => ?_, fun hv => ?_⟩
  · rw [intensityLevel_eq_fifteen h hv, romAt_fifteen rom_legal, tileDensity_allOn]
  · rw [intensityLevel_eq_zero hv, romAt_zero rom_legal, tileDensity_allOff]

/-! ## Black, white and greys (41_brush_builder.md R155, R156) -/

theorem valueNat_grey (c : Channel) : valueNat c c c = c.toNat := by
  rw [valueNat, Nat.max_self, Nat.max_self]

/-- A grey of the high branch fills its three chrominance planes. -/
theorem build_grey_of_high (table : Rom) {c : Channel} (h : 127 < c.toNat) :
    (build table c c c).brush =
      { blue := romAt table 15, green := romAt table 15, red := romAt table 15,
        intensity := ~~~romAt table (intensityLevel c) } := by
  have hvalue : value c c c = c := by rw [← BitVec.toNat_inj, value_toNat, valueNat_grey]
  rw [build_of_high table (by rwa [valueNat_grey]), highBrush, hvalue, highLevel_self (by omega) rfl]

/-- A grey of the low branch has one entry in its three chrominance planes. -/
theorem build_grey_of_low (table : Rom) {c : Channel} (h : c.toNat ≤ 127) :
    (build table c c c).brush =
      { blue := romAt table (lowLevel c), green := romAt table (lowLevel c), red := romAt table (lowLevel c),
        intensity := 0 } := by
  rw [build_of_low table (by rwa [valueNat_grey]), lowBrush]

/-- Settles O19: the greys of the two branches (`build_grey_of_high`, `build_grey_of_low`) at the levels 0 and 15, whose
entries are all-off and all-on; the indices are numbers. -/
theorem blackWhiteAndGreyBuilds : Obligations.BlackWhiteAndGreyBuilds := by
  have h127 : (build rom 127 127 127).brush = ⟨romAt rom 15, romAt rom 15, romAt rom 15, 0⟩ :=
    build_grey_of_low rom (by decide)
  have h128 : (build rom 128 128 128).brush = ⟨romAt rom 15, romAt rom 15, romAt rom 15, ~~~romAt rom 15⟩ :=
    build_grey_of_high rom (by decide)
  have h255 : (build rom 255 255 255).brush = ⟨romAt rom 15, romAt rom 15, romAt rom 15, ~~~romAt rom 0⟩ :=
    build_grey_of_high rom (by decide)
  have h0 : (build rom 0 0 0).brush = ⟨romAt rom 0, romAt rom 0, romAt rom 0, 0⟩ :=
    build_grey_of_low rom (by decide)
  refine ⟨?_, h127, rfl, rfl, fun g hg => build_grey_of_high rom hg, ?_, rfl, ?_, rfl⟩
  · rw [h127, h128, romAt_fifteen rom_legal]
    rfl
  · rw [h0, romAt_zero rom_legal]
  · rw [h255, romAt_zero rom_legal, romAt_fifteen rom_legal]
    rfl

/-! ## Sampling the whole tile (42_pixel_compositor.md R175) -/

/-- The 16 coordinates of the tile, row by row. -/
def tileSamples : List (Coord × Coord) :=
  (List.range 4).flatMap fun y => (List.range 4).map fun x => (BitVec.ofNat 16 x, BitVec.ofNat 16 y)

/-- Their tile bits are the tile positions. -/
theorem tileSamples_tileBit : tileSamples.map (fun q => tileBit q.1 q.2) = tilePositions := by decide

/-- Each plane's samples over the tile count its density. -/
theorem countP_tileSamples (brush : Planes Word) (p : Plane) :
    (tileSamples.map fun q => compose brush q.1 q.2).countP (fun px => px.getLsbD p.index) =
      tileDensity (brush.get p) := by
  rw [tileDensity, ← tileSamples_tileBit, List.countP_map, List.countP_map]
  exact List.countP_congr fun q _ => by simp [compose_getLsbD]

/-- Settles O21: the samples of a plane are its tile positions (`countP_tileSamples`), and a build's planes are the
entries of their levels, the intensity plane complemented or 0. -/
theorem sampledCountIsTileDensity : Obligations.SampledCountIsTileDensity := by
  refine ⟨fun brush p => ?_, fun table r g b => ⟨fun hhigh => ?_, fun hlow => ?_⟩⟩
  · rw [← countP_tileSamples brush p]
    rfl
  · have hv : 127 < (value r g b).toNat := by rwa [value_toNat]
    simp only [build_red, build_green, build_blue, chromaLevel_of_high hv, tileDensity_intensity table hhigh, and_self]
  · have hv : (value r g b).toNat ≤ 127 := by rwa [value_toNat]
    simp only [build_red, build_green, build_blue, chromaLevel_of_low hv, build_intensity_of_low table hlow,
      true_and]
    exact tileDensity_allOff

end Sys2Proof.Machine
end

section
/-! The framebuffer as data: canonical planes with the same bytes are the same, a committed write stores one pixel and
is idempotent, and an overlapping write opens the bytes at its offset alone (20_memory.md R52, R57, R62). -/

namespace Sys2Proof.Machine

/-! ## Canonical planes (20_memory.md R52) -/

theorem Memory.read_head (k : Nat) (v : Byte) (m : Memory) : Memory.read ((k, v) :: m) k = v := if_pos rfl

/-- A canonical plane that starts above an offset reads as unlisted there. -/
theorem Memory.read_below_head {k a : Nat} {v : Byte} {m : Memory} (hm : Memory.wf ((k, v) :: m) = true) (h : a < k) :
    Memory.read ((k, v) :: m) a = Memory.unlisted := by
  obtain ⟨-, -, hlt, -⟩ := Memory.wf_cons.mp hm
  refine Memory.read_below fun c hc => ?_
  rcases List.mem_cons.mp hc with rfl | hc
  · exact h
  · exact h.trans (hlt c hc)

/-- Canonical planes that read alike list the same first offset: below the other's first, neither lists anything. -/
theorem Memory.head_le {k k' : Nat} {v v' : Byte} {m m' : Memory} (hm : Memory.wf ((k, v) :: m) = true)
    (hm' : Memory.wf ((k', v') :: m') = true)
    (h : ∀ a : Nat, Memory.read ((k, v) :: m) a = Memory.read ((k', v') :: m') a) : k' ≤ k := by
  obtain ⟨-, hv, -, -⟩ := Memory.wf_cons.mp hm
  refine Nat.le_of_not_lt fun hlt => hv ?_
  rw [← Memory.read_head k v m, h k, Memory.read_below_head hm' hlt]

/-- A canonical plane that reads as unlisted everywhere lists nothing. -/
theorem Memory.eq_nil_of_read {m : Memory} (hm : Memory.wf m = true)
    (h : ∀ a : Nat, Memory.read m a = Memory.unlisted) : m = [] := by
  cases m with
  | nil => rfl
  | cons c m =>
    obtain ⟨-, hv, -, -⟩ := Memory.wf_cons.mp hm
    exact absurd ((Memory.read_head c.1 c.2 m).symm.trans (h c.1)) hv

/-- Settles O44: by induction on one plane; two nonempty planes have the same first entry (`Memory.head_le` both ways),
and their tails read alike, at that offset as unlisted. -/
theorem canonicalPlanesAreEqual : Obligations.CanonicalPlanesAreEqual := by
  intro m
  induction m with
  | nil => exact fun m' _ hm' h => (Memory.eq_nil_of_read hm' fun a => (h a).symm).symm
  | cons c m ih =>
    intro m' hm hm' h
    cases m' with
    | nil => exact Memory.eq_nil_of_read hm h
    | cons c' m' =>
      obtain ⟨k, v⟩ := c
      obtain ⟨k', v'⟩ := c'
      obtain rfl : k = k' := Nat.le_antisymm (Memory.head_le hm' hm fun a => (h a).symm) (Memory.head_le hm hm' h)
      obtain rfl : v = v' := by rw [← Memory.read_head k v m, h k, Memory.read_head]
      obtain ⟨-, -, hlt, hwf⟩ := Memory.wf_cons.mp hm
      obtain ⟨-, -, hlt', hwf'⟩ := Memory.wf_cons.mp hm'
      have htail : ∀ a : Nat, Memory.read m a = Memory.read m' a := by
        intro a
        by_cases ha : a = k
        · rw [ha, Memory.read_below hlt, Memory.read_below hlt']
        · simpa only [Memory.read_cons, if_neg ha] using h a
      rw [ih m' hwf hwf' htail]

/-- Writing the byte a canonical plane already has there leaves it as it is. -/
theorem Memory.write_read {m : Memory} (hm : Memory.wf m = true) {a : Nat} (ha : a < 2 ^ 32) :
    Memory.write m a (Memory.read m a) = m := by
  refine canonicalPlanesAreEqual _ _ (Memory.wf_write hm ha _) hm fun c => ?_
  rw [Memory.read_write hm]
  split
  · next hc => rw [hc]
  · rfl

/-! ## The four planes -/

theorem planes_ext {α : Type} {ps qs : Planes α} (h : ∀ p : Plane, ps.get p = qs.get p) : ps = qs := by
  have hblue : ps.blue = qs.blue := h .blue
  have hgreen : ps.green = qs.green := h .green
  have hred : ps.red = qs.red := h .red
  have hintensity : ps.intensity = qs.intensity := h .intensity
  cases ps
  cases qs
  simp_all

/-- Bytes put at an offset are the bytes there. -/
theorem bytesAt_putBytes {fb : Planes Memory} (h : framebufferWf fb) (o : BitVec 32) (bs : Planes Byte) :
    bytesAt (putBytes fb o bs) o = bs :=
  planes_ext fun p => (bytesAt_get ..).trans (read_putBytes_same h o bs p)

/-- Putting the bytes a canonical framebuffer already has there leaves it as it is. -/
theorem putBytes_bytesAt {fb : Planes Memory} (h : framebufferWf fb) (o : BitVec 32) :
    putBytes fb o (bytesAt fb o) = fb := by
  refine planes_ext fun p => ?_
  rw [putBytes, planes_get_ofFn, bytesAt_get, Memory.write_read (h p) o.isLt]

/-! ## The merge (20_memory.md R52, R57) -/

/-- `MSB_FIRST`: pixel 0 is bit 7. -/
theorem pixelPosition_fbBitOrder (bit : BitVec 3) : pixelPosition Config.fbBitOrder bit = 7 - bit.toNat := rfl

/-- A plane's byte after the merge. -/
theorem mergePixel_getLsbD (bs : Planes Byte) (bit : BitVec 3) (px : Pixel) (p : Plane) (j : Nat) :
    ((mergePixel Config.fbBitOrder bs bit px).get p).getLsbD j =
      if j = 7 - bit.toNat then px.getLsbD p.index else (bs.get p).getLsbD j := by
  rw [mergePixel, planes_get_ofFn, getLsbD_setBit _ (pixelPosition_lt ..), pixelPosition_fbBitOrder]

/-- Settles O42: the merge puts back each plane's byte with one bit replaced (`mergePixel_getLsbD`) and no other
byte. -/
theorem mergeStoresOnePixel : Obligations.MergeStoresOnePixel := by
  intro fb o bit px h p
  refine ⟨?_, fun j hj => ?_, fun o' ho => read_putBytes_other h ho _ p⟩
  · rw [fbMerge, read_putBytes_same h, mergePixel_getLsbD, if_pos rfl]
  · rw [fbMerge, read_putBytes_same h, mergePixel_getLsbD, if_neg hj, bytesAt_get]

/-- A pixel merged twice is merged once. -/
theorem mergePixel_mergePixel (bs : Planes Byte) (bit : BitVec 3) (px : Pixel) :
    mergePixel Config.fbBitOrder (mergePixel Config.fbBitOrder bs bit px) bit px =
      mergePixel Config.fbBitOrder bs bit px := by
  refine planes_ext fun p => BitVec.eq_of_getLsbD_eq fun j _ => ?_
  rw [mergePixel_getLsbD, mergePixel_getLsbD]
  split <;> rfl

/-- Settles O43: the second merge puts back the bytes the first one left (`mergePixel_mergePixel`), which on canonical
planes changes nothing as data (`putBytes_bytesAt`). -/
theorem mergeIsIdempotent : Obligations.MergeIsIdempotent := by
  intro fb o bit px h
  have hbytes : mergePixel Config.fbBitOrder (bytesAt (fbMerge fb o bit px) o) bit px =
      bytesAt (fbMerge fb o bit px) o := by
    rw [fbMerge, bytesAt_putBytes h, mergePixel_mergePixel]
  rw [fbMerge, hbytes, putBytes_bytesAt (wf_fbMerge h o bit px)]

/-! ## Races (20_memory.md R62) -/

/-- The state of a step in which no other writer acts. -/
def State.withoutOther (s : State) : State :=
  { s with inputs := { s.inputs with other := none } }

theorem races_none (o : BitVec 32) : races none o = false := rfl

/-- A raced commit is the commit alone, then free bytes at its offset. -/
theorem fbCommitted_raced {s : State} {req : FbRequest} (h : races s.inputs.other req.offset = true) :
    fbCommitted s req = putBytes (fbCommitted s.withoutOther req) req.offset (Config.freeBytes s.tick) := by
  simp [fbCommitted, h, State.withoutOther, races_none]

/-- Settles O45: a raced commit is `fbCommitted_raced`, so its own offset has the free bytes, and every other offset is
left to the merge, which leaves it alone. -/
theorem overlappingWritesRace : Obligations.OverlappingWritesRace := by
  intro s req o h hother hoverlaps hoffset
  have hrace : races s.inputs.other req.offset = true := by simp [races, hother, hoverlaps, hoffset]
  have hwf : framebufferWf (fbCommitted s.withoutOther req) :=
    wf_fbCommitted (s := s.withoutOther) h req
  refine ⟨by simp [hrace], ?_, fun hoob p a ha => ?_⟩
  · rw [State.commit_fb, fbCommitted_raced hrace, bytesAt_putBytes hwf]
  · rw [State.commit_fb, fbCommitted_raced hrace, read_putBytes_other hwf ha, fbCommitted_plain hoob rfl]
    exact read_putBytes_other h ha _ p

end Sys2Proof.Machine
end

section
/-! The commands in their frames: SAMPLE and ROMRD, what PLOT and PLOTS latch, request and store, and what a coordinate
has to do with it (42_pixel_compositor.md R163 to R171, R176, R177; 43_readback.md R193). -/

namespace Sys2Proof.Machine

/-! ## Coordinates (42_pixel_compositor.md R160, R163, R165) -/

theorem subPosition_toNat (x : Coord) : (subPosition x).toNat = x.toNat % 8 := by
  rw [subPosition, extract_toNat]
  omega

theorem subPosition_eq_ofNat (x : Coord) : subPosition x = BitVec.ofNat 3 (x.toNat % 8) := by
  rw [← subPosition_toNat, BitVec.ofNat_toNat, BitVec.setWidth_eq]

/-- Coordinates of one column modulo 4 have one tile column. -/
theorem tileCoord_congr {c c' : Coord} (h : c.toNat % 4 = c'.toNat % 4) : tileCoord c = tileCoord c' := by
  rw [← BitVec.toNat_inj, tileCoord_toNat, tileCoord_toNat, h]

/-- The pixel depends on the tile position alone. -/
theorem compose_congr {x y x' y' : Coord} (hx : tileCoord x = tileCoord x') (hy : tileCoord y = tileCoord y')
    (brush : Planes Word) : compose brush x y = compose brush x' y' := by
  simp only [compose, tileBit, hx, hy]

theorem outOfBounds_eq_true {x y : Coord} :
    outOfBounds params.widthPx params.heightPx x y = true ↔ ¬ inDisplay x y := by
  rw [← outOfBounds_eq_false, Bool.not_eq_false]

/-- Settles O24: the offset of a request is exact (`fbOffset_toNat`) and the sub-position is the rest of `x` by 8, so
the two tell coordinates of a row apart. -/
theorem byteGroupSharesOffset : Obligations.ByteGroupSharesOffset := by
  intro x x' y px px' hgroup
  simp only [pixelRequest_offset, pixelRequest_bit]
  refine ⟨?_, subPosition_toNat x, fun hne hbit => hne (BitVec.eq_of_toNat_eq ?_),
    fun hfour => tileCoord_congr (by omega)⟩
  · rw [← BitVec.toNat_inj, fbOffset_toNat wBytes_le, fbOffset_toNat wBytes_le, hgroup]
  · have hrest := congrArg BitVec.toNat hbit
    rw [subPosition_toNat, subPosition_toNat] at hrest
    omega

/-! ## SAMPLE and ROMRD (42_pixel_compositor.md R169, 43_readback.md R193) -/

/-- SAMPLE with a valid brush latches the composed pixel. -/
theorem exec_sample_of_bvalid {s : State} (h : s.status.bvalid = true) (x y : Coord) :
    exec (.sample x y) s = .next ((s.latchPixel (compose s.brush x y)).succeed 3#3) := by
  rw [exec_sample, if_pos h]

/-- Settles O27: the answer is `exec_sample_of_bvalid`, whose pixel has each plane's tile bit (`compose_getLsbD`). -/
theorem sampleCompositesTheLatchedBrush : Obligations.SampleCompositesTheLatchedBrush := by
  intro s x y h
  have hexec := exec_sample_of_bvalid h x y
  refine ⟨_, hexec, fun p => ?_, rfl, rfl, rfl, rfl, rfl, rfl, ⟨fun _ _ => rfl, rfl⟩, exec_surroundings hexec⟩
  rw [← tileBit_eq]
  exact compose_getLsbD s.brush x y p

/-- Settles O28: without a valid brush the answer is the error response. -/
theorem sampleWithoutBrushIsRejected : Obligations.SampleWithoutBrushIsRejected := by
  intro s x y h
  rw [exec_sample, if_neg (by simp [h])]
  rfl

/-- Settles O33: ROMRD latches the entry; the entries 0 and 15 are those of every legal table. -/
theorem romrdReadsTheEntry : Obligations.RomrdReadsTheEntry := by
  intro s lvl
  have hexec := exec_romrd lvl s
  refine ⟨_, hexec, rfl, ?_, ?_, rfl, rfl, rfl, rfl, rfl, rfl, ⟨fun _ _ => rfl, rfl⟩, exec_surroundings hexec⟩
  · rintro rfl
    exact romAt_zero rom_legal
  · rintro rfl
    exact romAt_fifteen rom_legal

/-! ## PLOT and PLOTS (42_pixel_compositor.md R165, R170, R171) -/

section PlotPixel

variable (s : State) (op : BitVec 3) (r g b : Channel) (x y : Coord) (px : Pixel)

theorem build_high (table : Rom) : (build table r g b).high = decide (127 < valueNat r g b) := highBranch_value r g b

/-- The registers PLOT and PLOTS leave, at once or waiting. -/
theorem plotPixel_plotLatched : s.plotLatched (s.plotPixel op (build rom r g b) x y px) op r g b px := by
  refine ⟨by simp, by simp, by simp, by simp, ?_⟩
  rw [plotPixel_status, build_high]
  rfl

theorem plotPixel_sameSurroundings (built : Built) : s.sameSurroundings (s.plotPixel op built x y px) := by
  simp [State.sameSurroundings]

/-- PLOT and PLOTS record exactly a pixel outside the display area, at once or waiting. -/
theorem plotPixel_boundsRecorded (built : Built) : s.boundsRecorded (s.plotPixel op built x y px) x y := by
  have hoob : (s.plotPixel op built x y px).faults.precondOob =
      (s.faults.precondOob || outOfBounds params.widthPx params.heightPx x y) := by
    cases hready : s.inputs.fbReady with
    | true =>
      obtain ⟨-, -, -, hfaults⟩ := plotPixel_ready s op built x y px hready
      rw [hfaults]
    | false =>
      obtain ⟨-, -, -, hfaults⟩ := plotPixel_waiting s op built x y px hready
      rw [hfaults]
  refine ⟨?_, (plotPixel_faults_le ..).2⟩
  rw [hoob, Bool.or_eq_true, outOfBounds_eq_true]

variable {s x y}

/-- In the display area and without a race, the plotted pixel is stored and no fault is recorded. -/
theorem plotPixel_stored (built : Built) (hwf : framebufferWf s.fb) (hready : s.inputs.fbReady = true)
    (hin : inDisplay x y) (hrace : races s.inputs.other (fbOffset params.wBytes x y) = false) :
    pixelStored s.fb (s.plotPixel op built x y px).fb (fbOffset params.wBytes x y) (BitVec.ofNat 3 (x.toNat % 8)) px
      ∧ (s.plotPixel op built x y px).writes =
          s.writes ++ [⟨fbOffset params.wBytes x y, BitVec.ofNat 3 (x.toNat % 8), px, false⟩]
      ∧ (s.plotPixel op built x y px).phase = .idle ∧ (s.plotPixel op built x y px).faults = s.faults := by
  obtain ⟨hphase, hwrites, hfb, hfaults⟩ := plotPixel_ready s op built x y px hready
  have hoob := outOfBounds_eq_false.mpr hin
  rw [hphase, hwrites, hfb, hfaults, fbCommitted_plain hoob hrace, ← subPosition_eq_ofNat, hoob, hrace]
  refine ⟨mergeStoresOnePixel _ _ _ _ hwf, ?_, rfl, by simp⟩
  rw [pixelRequest, hoob]

/-- With `fb_ready` 0 the registers stand and the request waits. -/
theorem plotPixel_waits (hready : s.inputs.fbReady = false) :
    s.plotLatched (s.plotPixel op (build rom r g b) x y px) op r g b px
      ∧ (s.plotPixel op (build rom r g b) x y px).phase = .fbwait (pixelRequest x y px)
      ∧ s.boundsRecorded (s.plotPixel op (build rom r g b) x y px) x y
      ∧ (s.plotPixel op (build rom r g b) x y px).faults.fbRace = s.faults.fbRace
      ∧ s.sameFramebuffer (s.plotPixel op (build rom r g b) x y px)
      ∧ s.sameSurroundings (s.plotPixel op (build rom r g b) x y px) := by
  obtain ⟨hphase, hwrites, hfb, hfaults⟩ := plotPixel_waiting s op (build rom r g b) x y px hready
  exact ⟨plotPixel_plotLatched .., hphase, plotPixel_boundsRecorded .., by rw [hfaults],
    ⟨fun _ _ => by rw [hfb], hwrites⟩, plotPixel_sameSurroundings ..⟩

/-- With `fb_ready` 1 the registers stand and the request of the coordinate is committed, wherever it lies. -/
theorem plotPixel_commits (hready : s.inputs.fbReady = true) :
    s.boundsRecorded (s.plotPixel op (build rom r g b) x y px) x y
      ∧ s.plotLatched (s.plotPixel op (build rom r g b) x y px) op r g b px
      ∧ (s.plotPixel op (build rom r g b) x y px).writes = s.writes ++ [pixelRequest x y px]
      ∧ (pixelRequest x y px).offset.toNat = y.toNat * params.wBytes + x.toNat / 8
      ∧ (pixelRequest x y px).bit.toNat = x.toNat % 8 ∧ (pixelRequest x y px).pixel = px
      ∧ ((pixelRequest x y px).oob = true ↔ ¬ inDisplay x y)
      ∧ (s.plotPixel op (build rom r g b) x y px).phase = .idle
      ∧ s.sameSurroundings (s.plotPixel op (build rom r g b) x y px) := by
  obtain ⟨hphase, hwrites, -, -⟩ := plotPixel_ready s op (build rom r g b) x y px hready
  exact ⟨plotPixel_boundsRecorded .., plotPixel_plotLatched .., hwrites, fbOffset_toNat wBytes_le x y,
    subPosition_toNat x, rfl, outOfBounds_eq_true, hphase, plotPixel_sameSurroundings ..⟩

end PlotPixel

/-- Settles O29: PLOT is a plotted pixel, which is latched (`plotPixel_plotLatched`) and stored (`plotPixel_stored`). -/
theorem plotCommitsTheDitheredPixel : Obligations.PlotCommitsTheDitheredPixel := by
  intro s x y r g b hwf hready hin hrace
  obtain ⟨hstored, hwrites, hphase, hfaults⟩ := plotPixel_stored 1#3 _ (build rom r g b) hwf hready hin hrace
  exact ⟨_, exec_plot x y r g b s, plotPixel_plotLatched .., hstored, hwrites, hphase, hfaults,
    plotPixel_sameSurroundings ..⟩

/-- Settles O30: PLOTS is a plotted pixel as PLOT is, with the index of the build. -/
theorem plotsCommitsTheBestMatchIndex : Obligations.PlotsCommitsTheBestMatchIndex := by
  intro s x y r g b hwf hready hin hrace
  obtain ⟨hstored, hwrites, hphase, hfaults⟩ := plotPixel_stored 2#3 _ (build rom r g b) hwf hready hin hrace
  exact ⟨_, exec_plots x y r g b s, plotPixel_plotLatched .., hstored, hwrites, hphase, hfaults,
    plotPixel_sameSurroundings ..⟩

/-- Settles O31: both commands plot a pixel, which waits (`plotPixel_waits`). -/
theorem plotWaitsForTheFramebuffer : Obligations.PlotWaitsForTheFramebuffer := fun s x y r g b hready =>
  ⟨⟨_, exec_plot x y r g b s, plotPixel_waits 1#3 r g b _ hready⟩,
    ⟨_, exec_plots x y r g b s, plotPixel_waits 2#3 r g b _ hready⟩⟩

/-- Settles O32: both commands plot a pixel, which is committed wherever it lies (`plotPixel_commits`). -/
theorem anyCoordinateIsPlotted : Obligations.AnyCoordinateIsPlotted := fun s x y r g b hready =>
  ⟨⟨_, _, exec_plot x y r g b s, plotPixel_commits 1#3 r g b _ hready⟩,
    ⟨_, _, exec_plots x y r g b s, plotPixel_commits 2#3 r g b _ hready⟩⟩

/-- Settles O22: the request carries the composed pixel, and a step of 4 keeps the tile position
(`compose_congr`). -/
theorem plottedPixelIsPeriodic : Obligations.PlottedPixelIsPeriodic := by
  intro s s' x y x' y' r g b i j hready hready' hx hy
  obtain ⟨-, hwrites, -, -⟩ :=
    plotPixel_ready s 1#3 (build rom r g b) x y (compose (build rom r g b).brush x y) hready
  obtain ⟨-, hwrites', -, -⟩ :=
    plotPixel_ready s' 1#3 (build rom r g b) x' y' (compose (build rom r g b).brush x' y') hready'
  exact ⟨_, _, _, _, exec_plot x y r g b s, exec_plot x' y' r g b s', hwrites, hwrites',
    compose_congr (tileCoord_congr (by omega)) (tileCoord_congr (by omega)) _⟩

end Sys2Proof.Machine
end

section
/-! `STATUS` as a number (10_state.md R31) and what a read tells the host (43_readback.md R190 to R194). -/

namespace Sys2Proof.Machine

/-- Settles O36: each field of the packed word at its place (`append_toNat`). -/
theorem statusWordLayout : Obligations.StatusWordLayout := by
  intro st
  simp only [Status.pack, append_toNat, BitVec.toNat_ofBool, BitVec.ofNat_eq_ofNat, BitVec.toNat_ofNat]
  omega

/-! ## What a read tells (43_readback.md R194) -/

section ReadKnown

variable {s : State} {rsel : BitVec 4}

theorem readKnown_of_specified (h : s.readSpecified rsel = true) : s.readKnown rsel = some (s.registerAt rsel) :=
  if_pos h

theorem readKnown_of_unspecified (h : s.readSpecified rsel = false) : s.readKnown rsel = none := by
  rw [State.readKnown, h, if_neg Bool.false_ne_true]

/-- A read tells nothing exactly where no rule fixes it. -/
theorem readKnown_eq_none_iff : s.readKnown rsel = none ↔ s.readSpecified rsel = false := by
  refine ⟨fun h => ?_, readKnown_of_unspecified⟩
  cases hspec : s.readSpecified rsel with
  | true =>
    rw [readKnown_of_specified hspec] at h
    cases h
  | false => rfl

/-- What a read tells is what the port shows. -/
theorem readPort_of_readKnown {w : Word} (h : s.readKnown rsel = some w) : s.readPort rsel = w := by
  cases hspec : s.readSpecified rsel with
  | true =>
    rw [readKnown_of_specified hspec] at h
    rw [readPort_of_specified hspec]
    exact Option.some.inj h
  | false =>
    rw [readKnown_of_unspecified hspec] at h
    cases h

theorem readKnown_reserved (s : State) (h : 8 ≤ rsel.toNat) : s.readKnown rsel = some 0x00000000 := by
  rw [readKnown_of_specified (readSpecified_reserved s h), registerAt_reserved s h]

theorem readKnown_of_indexValid (hidle : s.phase = .idle) (hreset : s.inReset = false)
    (hvalid : s.indexValid rsel = true) : s.readKnown rsel = some (s.registerAt rsel) :=
  readKnown_of_specified (readSpecified_of_indexValid hidle hreset hvalid)

section Unspecified

variable (hlt : rsel.toNat < 8)
include hlt

theorem readKnown_of_busy (h : s.phase ≠ .idle) : s.readKnown rsel = none :=
  readKnown_of_unspecified (by simp [State.readSpecified, h, hlt])

theorem readKnown_of_inReset (h : s.inReset = true) : s.readKnown rsel = none :=
  readKnown_of_unspecified (by simp [State.readSpecified, h, hlt])

theorem readKnown_of_invalid (h : s.indexValid rsel = false) : s.readKnown rsel = none :=
  readKnown_of_unspecified (by simp [State.readSpecified, h, hlt])

end Unspecified

/-! ## The valid bit of an index (43_readback.md R191) -/

theorem indexValid_brush (hlo : 1 ≤ rsel.toNat) (hhi : rsel.toNat ≤ 5) : s.indexValid rsel = s.status.bvalid := by
  unfold State.indexValid
  interval_cases rsel.toNat <;> rfl

/-! ## The free bits of an unspecified read (43_readback.md R192; log entry 13) -/

/-- A bit that always reads 0 is one above the nibble of `BIDX` or `PIX`. -/
theorem not_zeroBits_getLsbD (rsel : BitVec 4) {i : Nat} (hi : i < 32) :
    (~~~zeroBits rsel).getLsbD i = (decide (i < 4) || decide (rsel ≠ 5 ∧ rsel ≠ 6)) := by
  by_cases hpixel : rsel = 5 ∨ rsel = 6
  · have hnone : ¬ (rsel ≠ 5 ∧ rsel ≠ 6) := by tauto
    have hbits : ∀ i < 32, (~~~0xFFFFFFF0#32).getLsbD i = decide (i < 4) := by decide
    rw [zeroBits, if_pos hpixel, decide_eq_false hnone, Bool.or_false]
    exact hbits i hi
  · have hall : rsel ≠ 5 ∧ rsel ≠ 6 := by tauto
    have hbits : ∀ i < 32, (~~~0x00000000#32).getLsbD i = true := by decide
    rw [zeroBits, if_neg hpixel, decide_eq_true hall, Bool.or_true]
    exact hbits i hi

theorem readPort_getLsbD_of_unspecified (h : s.readSpecified rsel = false) (i : Nat) :
    (s.readPort rsel).getLsbD i =
      ((Config.freeRead s.tick rsel).getLsbD i && (decide (i < 4) || decide (rsel ≠ 5 ∧ rsel ≠ 6))) := by
  rw [readPort_of_unspecified h, BitVec.getLsbD_and]
  by_cases hi : i < 32
  · rw [not_zeroBits_getLsbD rsel hi]
  · rw [BitVec.getLsbD_of_ge _ _ (by omega), Bool.false_and, Bool.false_and]

end ReadKnown

/-- Settles O41: a read outside `IDLE`, in reset or of an invalid index is unspecified and tells nothing; every other
one tells its register; the port shows what is told, and free bits else. -/
theorem unspecifiedReadsTellNothing : Obligations.UnspecifiedReadsTellNothing := by
  intro s rsel
  refine ⟨readKnown_of_busy, readKnown_of_inReset, fun hlo hhi hb => ?_, ?_, ?_, readKnown_reserved s,
    fun hidle hreset => ⟨?_, fun hb hlo hhi => ?_, fun hp => ?_, fun hr => ?_⟩, fun _ => readPort_of_readKnown,
    fun h => readPort_getLsbD_of_unspecified (readKnown_eq_none_iff.mp h)⟩
  · exact readKnown_of_invalid (by omega) (by rw [indexValid_brush hlo hhi, hb])
  · rintro rfl hp
    exact readKnown_of_invalid (by decide) hp
  · rintro rfl hr
    exact readKnown_of_invalid (by decide) hr
  · rintro rfl
    exact readKnown_of_indexValid hidle hreset rfl
  · exact readKnown_of_indexValid hidle hreset (by rw [indexValid_brush hlo hhi, hb])
  · rintro rfl
    exact readKnown_of_indexValid hidle hreset hp
  · rintro rfl
    exact readKnown_of_indexValid hidle hreset hr

/-- Settles O53: the reset state has `STATUS` 0 and is not running, and none of its results is valid. -/
theorem stateAfterReset : Obligations.StateAfterReset := by
  refine ⟨by decide, rfl, rfl, rfl, rfl, fun rsel hlo hhi => readKnown_of_invalid (by omega) ?_⟩
  unfold State.indexValid
  interval_cases rsel.toNat <;> rfl

end Sys2Proof.Machine
end

section
/-! The step forwards: what it answers in each situation of the block (10_state.md R40, R41; 30_encoding.md R96;
70_reset_and_hazards.md R240 to R243, R248), and so where it stops. -/

namespace Sys2Proof.Machine

/-! ## The block's part, by situation -/

section BlockStep

variable {u : State}

theorem blockStep_reset (h : u.inputs.rstN = false) : u.blockStep = .next (u.assertReset.advance false) := by
  rw [State.blockStep, h, if_neg Bool.false_ne_true, finish_next]

/-- A block out of reset that is not running yet. -/
theorem blockStep_boot (h : u.inputs.rstN = true) (hboot : u.boot ≠ .running) :
    u.blockStep =
      .next (({ u with boot := if u.inputs.latencyOver then .running else .settling } : State).advance false) := by
  rw [State.blockStep, if_pos h]
  cases hb : u.boot with
  | held => simp only [State.bootStep, finish_next]
  | settling => simp only [State.bootStep, finish_next]
  | running => exact absurd hb hboot

theorem runStep_of_idle (hidle : u.phase = .idle) : u.runStep = u.idleStep := by
  rw [State.runStep, hidle]

section Running

variable (h : u.inputs.rstN = true) (hrun : u.boot = .running)
include h hrun

theorem blockStep_running : u.blockStep = u.runStep := by
  rw [State.blockStep, if_pos h, hrun]

theorem blockStep_waits (hidle : u.phase = .idle) (hnone : u.acceptedWord = none) :
    u.blockStep = .next (({ u with unsettled := false } : State).advance false) := by
  rw [blockStep_running h hrun, runStep_of_idle hidle]
  simp only [State.idleStep, hnone, finish_next]

theorem blockStep_transacts (hidle : u.phase = .idle) {w : CommandWord} (hword : u.acceptedWord = some w)
    (hover : u.inputs.latencyOver = true) :
    u.blockStep = finish true (({ u with unsettled := false } : State).complete w) := by
  rw [blockStep_running h hrun, runStep_of_idle hidle]
  simp only [State.idleStep, hword, hover, if_true]

theorem blockStep_accepts (hidle : u.phase = .idle) {w : CommandWord} (hword : u.acceptedWord = some w)
    (hover : u.inputs.latencyOver = false) :
    u.blockStep = .next (({ u with unsettled := false, phase := .exec w } : State).advance true) := by
  rw [blockStep_running h hrun, runStep_of_idle hidle]
  simp only [State.idleStep, hword, hover, Bool.false_eq_true, if_false, finish_next]

theorem blockStep_completes {w : CommandWord} (hexec : u.phase = .exec w) (hover : u.inputs.latencyOver = true) :
    u.blockStep = finish false (u.complete w) := by
  rw [blockStep_running h hrun, State.runStep, hexec]
  simp only [hover, if_true]

theorem blockStep_computes {w : CommandWord} (hexec : u.phase = .exec w) (hover : u.inputs.latencyOver = false) :
    u.blockStep = .next (u.advance false) := by
  rw [blockStep_running h hrun, State.runStep, hexec]
  simp only [hover, Bool.false_eq_true, if_false, finish_next]

theorem blockStep_commits {q : FbRequest} (hwait : u.phase = .fbwait q) (hready : u.inputs.fbReady = true) :
    u.blockStep = .next ((u.commit q).advance false) := by
  rw [blockStep_running h hrun, State.runStep, hwait]
  simp only [hready, if_true, finish_next]

theorem blockStep_holds {q : FbRequest} (hwait : u.phase = .fbwait q) (hready : u.inputs.fbReady = false)
    (hscript : u.script ≠ []) : u.blockStep = .next (u.advance false) := by
  rw [blockStep_running h hrun, State.runStep, hwait]
  simp only [hready, Bool.false_eq_true, if_false, List.isEmpty_iff, hscript, finish_next]

theorem blockStep_stuck {q : FbRequest} (hwait : u.phase = .fbwait q) (hready : u.inputs.fbReady = false)
    (hscript : u.script = []) : u.blockStep = .fault .fbStuck := by
  rw [blockStep_running h hrun, State.runStep, hwait]
  simp only [hready, Bool.false_eq_true, if_false, hscript, List.isEmpty_nil, if_true]

end Running

end BlockStep

/-! ## Where a step stops (70_reset_and_hazards.md R248) -/

/-- The stuck state: out of reset in `FBWAIT`, with `fb_ready` 0 and no further input. -/
def State.stuck (s : State) : Prop :=
  s.inputs.rstN = true ∧ s.boot = .running ∧ (∃ q : FbRequest, s.phase = .fbwait q) ∧ s.inputs.fbReady = false
    ∧ s.script = []

theorem step_of_stuck {s : State} (h : s.stuck) : step s = .fault .fbStuck := by
  obtain ⟨hrst, hrun, ⟨q, hwait⟩, hready, hscript⟩ := h
  exact blockStep_stuck (by simpa using hrst) (by simpa using hrun) (q := q) (by simpa using hwait)
    (by simpa using hready) (by simpa using hscript)

/-- A finished next state is a next state. -/
theorem finish_complete_next (acc : Bool) (s : State) (w : CommandWord) :
    ∃ t : State, finish acc (s.complete w) = .next t := by
  obtain ⟨v, hv⟩ := complete_next s w
  exact ⟨_, by rw [hv, finish_next]⟩

/-- In `IDLE` a running block always goes on. -/
theorem blockStep_next_of_idle {u : State} (h : u.inputs.rstN = true) (hrun : u.boot = .running)
    (hidle : u.phase = .idle) : ∃ t : State, u.blockStep = .next t := by
  cases hword : u.acceptedWord with
  | none => exact ⟨_, blockStep_waits h hrun hidle hword⟩
  | some w =>
    cases hover : u.inputs.latencyOver with
    | true =>
      rw [blockStep_transacts h hrun hidle hword hover]
      exact finish_complete_next ..
    | false => exact ⟨_, blockStep_accepts h hrun hidle hword hover⟩

/-- In `EXEC` a running block always goes on. -/
theorem blockStep_next_of_exec {u : State} (h : u.inputs.rstN = true) (hrun : u.boot = .running) {w : CommandWord}
    (hexec : u.phase = .exec w) : ∃ t : State, u.blockStep = .next t := by
  cases hover : u.inputs.latencyOver with
  | true =>
    rw [blockStep_completes h hrun hexec hover]
    exact finish_complete_next ..
  | false => exact ⟨_, blockStep_computes h hrun hexec hover⟩

/-- In `FBWAIT` a running block goes on unless it is stuck. -/
theorem blockStep_next_of_fbwait {u : State} (h : u.inputs.rstN = true) (hrun : u.boot = .running) {q : FbRequest}
    (hwait : u.phase = .fbwait q) (hnot : ¬ u.stuck) : ∃ t : State, u.blockStep = .next t := by
  cases hready : u.inputs.fbReady with
  | true => exact ⟨_, blockStep_commits h hrun hwait hready⟩
  | false =>
    have hscript : u.script ≠ [] := fun hnil => hnot ⟨h, hrun, ⟨q, hwait⟩, hready, hnil⟩
    exact ⟨_, blockStep_holds h hrun hwait hready hscript⟩

/-- A block that is not stuck has a next state. -/
theorem blockStep_next_of_not_stuck {u : State} (hnot : ¬ u.stuck) : ∃ t : State, u.blockStep = .next t := by
  cases h : u.inputs.rstN with
  | false => exact ⟨_, blockStep_reset h⟩
  | true =>
    by_cases hrun : u.boot = .running
    · cases hp : u.phase with
      | idle => exact blockStep_next_of_idle h hrun hp
      | exec w => exact blockStep_next_of_exec h hrun hp
      | fbwait q => exact blockStep_next_of_fbwait h hrun hp hnot
    · exact ⟨_, blockStep_boot h hrun⟩

/-- What the environment does neither makes nor mends the stuck state. -/
theorem observe_stuck (s : State) : s.observe.stuck ↔ s.stuck := by
  simp [State.stuck]

theorem step_next_of_not_stuck {s : State} (hnot : ¬ s.stuck) : ∃ t : State, step s = .next t :=
  blockStep_next_of_not_stuck ((observe_stuck s).not.mpr hnot)

/-- Settles O51: a stuck block answers the fault, every other one a next state. -/
theorem stepStopsOnlyWhenStuck : Obligations.StepStopsOnlyWhenStuck := by
  intro s
  by_cases hstuck : s.stuck
  · exact ⟨.inr (step_of_stuck hstuck), fun _ => hstuck, fun _ => step_of_stuck hstuck⟩
  · obtain ⟨t, ht⟩ := step_next_of_not_stuck hstuck
    refine ⟨.inl ⟨t, ht⟩, fun hfault => ?_, fun h => absurd h hstuck⟩
    rw [ht] at hfault
    cases hfault

/-! ## The step of a ready block (30_encoding.md R96) -/

theorem cmdReady_iff (s : State) :
    s.cmdReady = true ↔ s.phase = .idle ∧ s.boot = .running ∧ s.inputs.rstN = true := by
  simp [State.cmdReady, and_assoc]

/-- An acceptance that is settled needs no settling. -/
theorem settled_eq_self {s : State} (h : s.unsettled = false) : ({ s with unsettled := false } : State) = s := by
  rw [← h]

/-- While the host keeps its duties the block acts on what the other writer leaves. -/
theorem step_of_kept {s : State} (h : s.protocolBroken = false) : step s = s.observeOther.blockStep := by
  rw [step, observe_of_kept h]

/-- The word a ready block accepts of a host within its duties. -/
theorem acceptedWord_of_accepts {s : State} {w : CommandWord} (h : s.accepts w) :
    s.observeOther.acceptedWord = some w := by
  obtain ⟨-, hvalid, hword, -, hsettled, -⟩ := h
  simp [State.acceptedWord, hvalid, hword, hsettled]

/-- A ready block completes the word its host presents. -/
theorem step_of_accepts {s : State} {w : CommandWord} (h : s.accepts w) :
    step s = finish true (s.observeOther.complete w) := by
  have hword := acceptedWord_of_accepts h
  rw [step_of_kept (protocolBroken_of_accepts h)]
  obtain ⟨hready, -, -, hover, hsettled, -⟩ := h
  obtain ⟨hidle, hrun, hrst⟩ := (cmdReady_iff s).mp hready
  rw [blockStep_transacts (by simpa using hrst) (by simpa using hrun) (by simpa using hidle) hword
    (by simpa using hover), settled_eq_self (by simpa using hsettled)]

theorem withFetchWord_accepts (s : State) (nbits w : Nat) : (s.withFetchWord nbits w).accepts (tableWord nbits w) :=
  ⟨rfl, rfl, rfl, rfl, rfl, .inl rfl⟩

/-- The decoder's reading of a table word. -/
theorem decode_of_decodeTableWord {nbits w : Nat} {i : Instr} (h : decodeTableWord nbits w = some i) :
    decode (tableWord nbits w) = .command i := by
  rw [decodeTableWord] at h
  cases hd : decode (tableWord nbits w) with
  | command j =>
    rw [hd] at h
    cases h
    rfl
  | illegalOp | rsvNonzero =>
    rw [hd] at h
    cases h

/-- Settles O46: a ready block completes the word (`step_of_accepts`), and a word that decodes completes as its
command. -/
theorem stepRunsTheDecodedCommand : Obligations.StepRunsTheDecodedCommand := by
  have hrun (s : State) (w : CommandWord) (i : Instr) (h : s.accepts w) (hd : decode w = .command i) :
      step s = finish true (exec i s.observeOther) := by
    rw [step_of_accepts h, complete_of_decode_command hd]
  exact ⟨hrun, fun s nbits w i hi => hrun _ _ i (withFetchWord_accepts s nbits w) (decode_of_decodeTableWord hi)⟩

/-- Settles O47: a ready block completes the word (`step_of_accepts`), and a word that does not decode completes as the
error response. -/
theorem stepRejectsOtherWords : Obligations.StepRejectsOtherWords := by
  intro s w h
  obtain ⟨hillegal, hrsv, -⟩ := decodeClassifiesEveryWord w
  rw [step_of_accepts h, ← fieldOp_eq_ofNat]
  refine ⟨fun hop => ?_, fun hop hne => ?_⟩
  · rw [complete_of_decode_illegalOp _ (hillegal hop), finish_next]
  · rw [complete_of_decode_rsvNonzero _ (hrsv hop hne), finish_next]

/-- Settles O48: the host breaks no duty and presents nothing, so the block waits. -/
theorem idleBlockWaits : Obligations.IdleBlockWaits := by
  intro s hready hvalid hsettled hoffered
  obtain ⟨hidle, hrun, hrst⟩ := (cmdReady_iff s).mp hready
  have hkept : s.protocolBroken = false := by simp [State.protocolBroken, hrst, hoffered]
  have hnone : s.observeOther.acceptedWord = none := by simp [State.acceptedWord, hsettled, hvalid]
  rw [step_of_kept hkept, blockStep_waits (by simpa using hrst) (by simpa using hrun) (by simpa using hidle) hnone,
    settled_eq_self (by simpa using hsettled)]

/-! ## A waiting request (20_memory.md R51, 70_reset_and_hazards.md R248) -/

/-- Neither the environment nor the next inputs touch a register. -/
theorem sameRegisters_observe_advance (s : State) (acc : Bool) : s.sameRegisters (s.observe.advance acc) := by
  simp [State.sameRegisters]

/-- A block that is not in `IDLE` is not ready. -/
theorem cmdReady_of_busy {s : State} (h : s.phase ≠ .idle) : s.cmdReady = false := by
  simp [State.cmdReady, h]

/-- Settles O49: the step of a block that holds its request (`blockStep_holds`). -/
theorem waitingRequestIsHeld : Obligations.WaitingRequestIsHeld := by
  intro s q hwait hrun hrst hready hscript
  have hstep : step s = .next (s.observe.advance false) :=
    blockStep_holds (by simpa using hrst) (by simpa using hrun) (q := q) (by simpa using hwait)
      (by simpa using hready) (by simpa using hscript)
  refine ⟨cmdReady_of_busy (by simp [hwait]), by simp [State.fbValid, hwait, hrst],
    by simp [State.fbPort, hwait, hrst], _, hstep, by simpa using hwait,
    sameRegisters_observe_advance .., by simp, by simp⟩

/-- Settles O50: the step of a block whose write is taken (`blockStep_commits`); a plain commit is the merge, which
stores the pixel. -/
theorem waitingRequestIsCommitted : Obligations.WaitingRequestIsCommitted := by
  intro s q hwait hrun hrst hready
  have hstep : step s = .next ((s.observe.commit q).advance false) :=
    blockStep_commits (by simpa using hrst) (by simpa using hrun) (q := q) (by simpa using hwait)
      (by simpa using hready)
  refine ⟨_, hstep, rfl, by simp, by simp [State.sameRegisters], fun hwf hoob hrace => ?_⟩
  rw [State.advance_fb, State.commit_fb, fbCommitted_plain hoob (by simpa using hrace), observe_fb]
  exact mergeStoresOnePixel _ _ _ _ (wf_observeOther hwf)

/-! ## Reset (70_reset_and_hazards.md R240 to R243) -/

/-- Reset leaves the framebuffer as it was, or with the one waiting write the framebuffer takes at that edge. -/
theorem assertReset_writes (u : State) :
    (u.assertReset.writes = u.writes ∧ u.assertReset.fb = u.fb)
      ∨ ∃ q : FbRequest, u.phase = .fbwait q ∧ u.inputs.fbReady = true ∧ u.assertReset.writes = u.writes ++ [q]
          ∧ u.assertReset.fb = (u.commit q).fb := by
  rw [State.assertReset, State.clear_writes, State.clear_fb]
  rcases withdraw_cases u with hkept | ⟨q, hwait, hready, hcommitted⟩
  · exact .inl (by rw [hkept]; exact ⟨rfl, rfl⟩)
  · exact .inr ⟨q, hwait, hready, by rw [hcommitted]; exact ⟨rfl, rfl⟩⟩

/-- The record of the protocol is no part of a commit's framebuffer. -/
theorem fbCommitted_observe (s : State) (q : FbRequest) : fbCommitted s.observe q = fbCommitted s.observeOther q := rfl

/-- Settles O54: the step asserts reset (`blockStep_reset`): nothing is valid or readable after it, and of the writes
only the one on the port is open (`assertReset_writes`). -/
theorem resetFromAnyPhase : Obligations.ResetFromAnyPhase := by
  intro s hrst
  have hstep : step s = .next (s.observe.assertReset.advance false) := blockStep_reset (by simpa using hrst)
  have hheld : (s.observe.assertReset.advance false).inReset = true := by
    simp [State.inReset, State.assertReset]
  refine ⟨_, hstep, (by decide : Status.reset.pack = 0x00000000), rfl, by simp [State.cmdReady, State.assertReset],
    rfl, fun rsel hlt => readKnown_of_inReset hlt hheld, fun rsel => readPort_reserved _, ?_⟩
  simpa [fbCommitted_observe] using assertReset_writes s.observe

/-- Settles O55: a block in its reset sequence goes on with it (`blockStep_boot`); a running one is ready in `IDLE`. -/
theorem leavingReset : Obligations.LeavingReset := by
  refine ⟨fun s hrst hboot hkept => ⟨by simp [State.cmdReady, hboot], ?_⟩, fun s hrun hrst => ?_⟩
  · rw [step_of_kept hkept, ← State.observeOther_inputs s]
    exact blockStep_boot (by simpa using hrst) (by simpa using hboot)
  · simp [cmdReady_iff, hrun, hrst]

end Sys2Proof.Machine
end

section
/-! What every step keeps: the recorded model faults (60_exceptions.md R218), the order of the committed writes
(20_memory.md R59), the record of the protocol and the pending word (70_reset_and_hazards.md R245), and so the duties of
the host of a listing (30_encoding.md R91). -/

namespace Sys2Proof.Machine

/-! ## What every operation of the block keeps -/

theorem ModelFaults.le_refl (a : ModelFaults) : a.le a := ⟨id, id, id⟩

theorem ModelFaults.le_trans {a b c : ModelFaults} (hab : a.le b) (hbc : b.le c) : a.le c := by
  obtain ⟨hoob, hprotocol, hrace⟩ := hab
  obtain ⟨hoob', hprotocol', hrace'⟩ := hbc
  exact ⟨hoob' ∘ hoob, hprotocol' ∘ hprotocol, hrace' ∘ hrace⟩

/-- What the block's part of a step keeps, before the next inputs come: the inputs, every recorded fault, the record of
the protocol, and the committed writes with at most one more, after which it is in `IDLE`. -/
structure State.Continues (u v : State) : Prop where
  inputs : v.inputs = u.inputs
  faults : u.faults.le v.faults
  protocol : v.faults.hostProtocol = u.faults.hostProtocol
  writes : v.writes = u.writes ∨ ∃ q : FbRequest, v.writes = u.writes ++ [q] ∧ v.phase = .idle

/-- What leaves inputs, faults and writes alone. -/
theorem continues_of_same {u v : State} (hinputs : v.inputs = u.inputs) (hfaults : v.faults = u.faults)
    (hwrites : v.writes = u.writes) : u.Continues v where
  inputs := hinputs
  faults := hfaults ▸ ModelFaults.le_refl _
  protocol := by rw [hfaults]
  writes := .inl hwrites

theorem continues_commit (u : State) (q : FbRequest) : u.Continues (u.commit q) where
  inputs := rfl
  faults := ⟨id, id, fun hrace => by simp [hrace]⟩
  protocol := rfl
  writes := .inr ⟨q, rfl, rfl⟩

theorem continues_plotPixel (u : State) (op : BitVec 3) (b : Built) (x y : Coord) (px : Pixel) :
    u.Continues (u.plotPixel op b x y px) where
  inputs := plotPixel_inputs ..
  faults := (plotPixel_faults_le ..).1
  protocol := (plotPixel_faults_le ..).2
  writes := by
    rcases plotPixel_one_write u op b x y px with ⟨q, hwrites, hidle, -⟩ | ⟨q, hwrites, -⟩
    · exact .inr ⟨q, hwrites, hidle⟩
    · exact .inl hwrites

theorem continues_completed {u v : State} (h : Completed u v) : u.Continues v := by
  cases h with
  | plotted x y r g b e => exact e ▸ continues_plotPixel ..
  | solid x y r g b e => exact e ▸ continues_plotPixel ..
  | built r g b e => exact e ▸ continues_of_same rfl rfl rfl
  | sampled x y _ e => exact e ▸ continues_of_same rfl rfl rfl
  | noBrush _ e => exact e ▸ continues_of_same rfl rfl rfl
  | romRead lvl e => exact e ▸ continues_of_same rfl rfl rfl
  | illegalOp op _ e => exact e ▸ continues_of_same rfl rfl rfl
  | rsvNonzero op _ e => exact e ▸ continues_of_same rfl rfl rfl

/-- A word that completes once the acceptance is settled. -/
theorem continues_settled_complete {u v : State} {w : CommandWord}
    (h : ({ u with unsettled := false } : State).complete w = .next v) : u.Continues v := by
  obtain ⟨hinputs, hfaults, hprotocol, hwrites⟩ := continues_completed (complete_cases h)
  exact ⟨hinputs, hfaults, hprotocol, hwrites⟩

/-- Reset clears registers and commits at most the waiting write. -/
theorem continues_assertReset (u : State) : u.Continues u.assertReset := by
  rw [State.assertReset]
  rcases withdraw_cases u with hkept | ⟨q, -, -, hcommitted⟩
  · rw [hkept]
    exact continues_of_same rfl rfl rfl
  · obtain ⟨hinputs, hfaults, hprotocol, hwrites⟩ := continues_commit u q
    rw [hcommitted]
    exact ⟨hinputs, hfaults, hprotocol, hwrites⟩

/-- Everything a step keeps: the block goes on from what the environment did, and then the next inputs come; a word
leaves the host's hands only where `cmd_ready` is 1. -/
theorem step_continues {s t : State} (h : step s = .next t) :
    ∃ (v : State) (acc : Bool),
      t = v.advance acc ∧ s.observe.Continues v ∧ (acc = true → s.cmdReady = true) := by
  have hready (hrst : s.observe.inputs.rstN = true) (hrun : s.observe.boot = .running)
      (hidle : s.observe.phase = .idle) : s.cmdReady = true :=
    (cmdReady_iff s).mpr ⟨by simpa using hidle, by simpa using hrun, by simpa using hrst⟩
  cases step_cases h with
  | reset _ e => exact ⟨_, _, e, continues_assertReset _, nofun⟩
  | boot _ _ e => exact ⟨_, _, e, continues_of_same rfl rfl rfl, nofun⟩
  | wait _ _ _ _ e => exact ⟨_, _, e, continues_of_same rfl rfl rfl, nofun⟩
  | accept w hrst hrun hidle _ _ e =>
    exact ⟨_, _, e, continues_of_same rfl rfl rfl, fun _ => hready hrst hrun hidle⟩
  | transact w v hrst hrun hidle _ _ hc e =>
    exact ⟨_, _, e, continues_settled_complete hc, fun _ => hready hrst hrun hidle⟩
  | complete w v _ _ _ _ hc e => exact ⟨_, _, e, continues_completed (complete_cases hc), nofun⟩
  | compute w _ _ _ _ e => exact ⟨_, _, e, continues_of_same rfl rfl rfl, nofun⟩
  | commit q _ _ _ _ e => exact ⟨_, _, e, continues_commit _ q, nofun⟩
  | hold q _ _ _ _ _ e => exact ⟨_, _, e, continues_of_same rfl rfl rfl, nofun⟩

/-! ## Faults and writes over a step -/

/-- The environment's part only records. -/
theorem faults_le_observe (s : State) : s.faults.le s.observe.faults := by
  refine ⟨fun hoob => ?_, fun hprotocol => ?_, fun hrace => ?_⟩
  · simpa using hoob
  · simp [hprotocol]
  · simpa using hrace

/-- Settles O57: neither the environment's part nor the block's clears a fault (`step_continues`). -/
theorem modelFaultsAreNeverCleared : Obligations.ModelFaultsAreNeverCleared := by
  intro s t h
  obtain ⟨v, acc, rfl, hv, -⟩ := step_continues h
  exact ModelFaults.le_trans (faults_le_observe s) hv.faults

/-- Settles O58: the block's part commits at most one write, at the end (`step_continues`). -/
theorem writesLeaveInOrder : Obligations.WritesLeaveInOrder := by
  intro s t h
  obtain ⟨v, acc, rfl, hv, -⟩ := step_continues h
  simpa using hv.writes

/-! ## The handshake (70_reset_and_hazards.md R245) -/

/-- The host's violations: a raised word dropped or changed, or a word raised in reset. -/
theorem protocolBroken_iff (s : State) :
    s.protocolBroken = true ↔
      (s.inputs.rstN = true ∧ ∃ w : CommandWord, s.offered = some w
          ∧ ¬ (s.inputs.cmdValid = true ∧ s.inputs.cmdWord = w))
        ∨ (s.inputs.rstN = false ∧ s.inputs.cmdValid = true) := by
  cases hrst : s.inputs.rstN with
  | false => simp [State.protocolBroken, hrst]
  | true =>
    cases hoffered : s.offered with
    | none => simp [State.protocolBroken, hrst, hoffered]
    | some w => simp [State.protocolBroken, hrst, hoffered, imp_iff_not_or]

/-- A step records exactly the violation of its own host. -/
theorem step_hostProtocol {s t : State} (h : step s = .next t) :
    t.faults.hostProtocol = (s.faults.hostProtocol || s.protocolBroken) := by
  obtain ⟨v, acc, rfl, hv, -⟩ := step_continues h
  rw [State.advance_faults, hv.protocol, observe_faults]

/-- A word pending after a step is the one its host raised in it. -/
theorem step_offered {s t : State} (h : step s = .next t) {w : CommandWord} (hw : t.offered = some w) :
    s.inputs.rstN = true ∧ s.inputs.cmdValid = true ∧ s.inputs.cmdWord = w := by
  obtain ⟨v, acc, rfl, hv, -⟩ := step_continues h
  rw [State.advance_offered, hv.inputs, observe_inputs] at hw
  split at hw
  · next hraised =>
    simp only [Bool.and_eq_true] at hraised
    obtain ⟨⟨hrst, hvalid⟩, -⟩ := hraised
    exact ⟨hrst, hvalid, Option.some.inj hw⟩
  · cases hw

/-- A word raised while `cmd_ready` is 0 stays pending. -/
theorem step_keeps_offered {s t : State} (h : step s = .next t) (hrst : s.inputs.rstN = true)
    (hvalid : s.inputs.cmdValid = true) (hbusy : s.cmdReady = false) : t.offered = some s.inputs.cmdWord := by
  obtain ⟨v, acc, rfl, hv, hready⟩ := step_continues h
  have hacc : acc = false := by
    cases acc with
    | false => rfl
    | true => exact absurd (hready rfl) (by simp [hbusy])
  rw [State.advance_offered, hv.inputs, observe_inputs, hrst, hvalid, hacc]
  rfl

/-! ## The host of a listing (30_encoding.md R91) -/

/-- A host that waits keeps its duties: a word it had raised stays up, and none is up in reset. -/
theorem hostWaits_protocolBroken (s : State) : s.hostWaits.protocolBroken = false := by
  unfold State.hostWaits
  cases hoffered : s.offered <;> cases hrst : s.inputs.rstN <;> simp [State.protocolBroken, hoffered, hrst]

/-- With `cmd_ready` 1 and no word pending a host may raise any word, or none. -/
theorem hostDrives_protocolBroken {s : State} (hready : s.cmdReady = true) (hoffered : s.offered = none) (v : Bool)
    (w : CommandWord) (rsel : BitVec 4) : (s.hostDrives v w rsel).protocolBroken = false := by
  obtain ⟨-, -, hrst⟩ := (cmdReady_iff s).mp hready
  simp [State.protocolBroken, hrst, hoffered]

/-- The host of a listing keeps its duties in every step. -/
theorem ListingRun.driven_protocolBroken (r : ListingRun) : r.driven.protocolBroken = false := by
  unfold ListingRun.driven
  cases hline : r.line with
  | none => exact hostWaits_protocolBroken _
  | some a =>
    obtain ⟨hready, hoffered, -⟩ := ListingRun.line_ready hline
    cases a <;> exact hostDrives_protocolBroken hready hoffered ..

/-- A step of a listing records no violation. -/
theorem ListingRun.step_hostProtocol {r r' : ListingRun} (h : r.step = .next r') :
    r'.machine.faults.hostProtocol = r.machine.faults.hostProtocol := by
  obtain ⟨t, ht, rfl⟩ := ListingRun.step_next h
  obtain ⟨v, w, rsel, hdriven⟩ := ListingRun.driven_drives r
  have hfaults : r.driven.faults = r.machine.faults := by rw [hdriven, hostDrives_faults]
  have hrecord := Machine.step_hostProtocol ht
  rw [ListingRun.driven_protocolBroken, Bool.or_false, hfaults] at hrecord
  exact hrecord

/-- While `cmd_ready` is 0 the host does no line. -/
theorem ListingRun.step_of_busy {r r' : ListingRun} (h : r.step = .next r') (hbusy : r.machine.cmdReady = false) :
    r'.todo = r.todo ∧ r'.reads = r.reads := by
  obtain ⟨t, -, rfl⟩ := ListingRun.step_next h
  simp [ListingRun.left, ListingRun.told, ListingRun.line, ListingRun.ready, hbusy]

section ReadyHost

variable {r r' : ListingRun} (h : r.step = .next r') (hready : r.machine.cmdReady = true)
  (hoffered : r.machine.offered = none)
include h hready hoffered

/-- With `cmd_ready` 1 and no word pending the host does its next line. -/
theorem ListingRun.step_todo : r'.todo = r.todo.tail := by
  obtain ⟨t, -, rfl⟩ := ListingRun.step_next h
  simp [ListingRun.left, ListingRun.ready, hready, hoffered]

/-- A command's line is accepted by the machine's step. -/
theorem ListingRun.step_send {w : CommandWord} {rest : List HostAction} (htodo : r.todo = .send w :: rest)
    (hsettled : r.machine.unsettled = false) (hover : r.machine.inputs.latencyOver = true) :
    r.driven.accepts w ∧ Machine.step r.driven = .next r'.machine ∧ r'.reads = r.reads := by
  obtain ⟨t, ht, rfl⟩ := ListingRun.step_next h
  have hline : r.line = some (.send w) := by rw [ListingRun.line_of_ready hready hoffered, htodo, List.head?_cons]
  refine ⟨?_, ht, by simp [ListingRun.told, hline]⟩
  rw [ListingRun.driven, hline]
  exact ⟨hready, rfl, rfl, hover, hsettled, .inl hoffered⟩

/-- A read's line adds what the read port tells. -/
theorem ListingRun.step_read {rsel : BitVec 4} {rest : List HostAction} (htodo : r.todo = .read rsel :: rest) :
    r'.reads = r.reads ++ [(rsel, r.machine.readKnown rsel)] := by
  obtain ⟨t, -, rfl⟩ := ListingRun.step_next h
  have hline : r.line = some (.read rsel) := by rw [ListingRun.line_of_ready hready hoffered, htodo, List.head?_cons]
  simp [ListingRun.told, ListingRun.driven, hline]

end ReadyHost

/-- Settles O56: a step records its host's violation (`step_hostProtocol`, `protocolBroken_iff`) and leaves pending what
is not accepted; the host of a listing breaks no duty and does its lines where it is ready. -/
theorem hostProtocolIsRecorded : Obligations.HostProtocolIsRecorded := by
  refine ⟨fun s t h => ⟨?_, fun w => step_offered h, step_keeps_offered h⟩, fun r r' h =>
    ⟨ListingRun.step_hostProtocol h, ListingRun.step_of_busy h, ListingRun.step_todo h,
      fun w rest htodo hready hoffered => ListingRun.step_send h hready hoffered htodo,
      fun rsel rest htodo hready hoffered => ListingRun.step_read h hready hoffered htodo⟩⟩
  rw [step_hostProtocol h, Bool.or_eq_true, protocolBroken_iff]

end Sys2Proof.Machine
end

section
/-! The `EXEC` phase (10_state.md R40, R41): a command word does the same from two states that agree in what commands
read, so one that spends a step in `EXEC` ends as the same word completed at once. -/

namespace Sys2Proof.Machine

/-! ## States that agree in what commands read -/

/-- The states agree in the registers, the framebuffer, the records and `fb_ready`, and no other writer acts in
either. -/
structure State.Agrees (s m : State) : Prop where
  registers : s.sameRegisters m
  fb : m.fb = s.fb
  writes : m.writes = s.writes
  faults : m.faults = s.faults
  fbReady : m.inputs.fbReady = s.inputs.fbReady
  alone : s.inputs.other = none
  alone' : m.inputs.other = none

/-- The registers, the phase and the records are the same in both. -/
def State.sameResult (a t : State) : Prop :=
  a.sameRegisters t ∧ t.phase = a.phase ∧ t.writes = a.writes ∧ t.faults = a.faults

/-- The command plots no pixel outside the display area (42_pixel_compositor.md R165). -/
def plotsInDisplay : Instr → Prop
  | .plot x y _ _ _ => inDisplay x y
  | .plots x y _ _ _ => inDisplay x y
  | .build _ _ _ => True
  | .sample _ _ => True
  | .romrd _ => True

theorem wordInDisplay_iff {w : CommandWord} {i : Instr} (hd : decode w = .command i) :
    wordInDisplay w ↔ plotsInDisplay i := by
  rw [wordInDisplay, hd]
  cases i <;> rfl

section Agrees

variable {s m : State} (h : s.Agrees m)
include h

/-- In the display area the committed bytes do not depend on the step's free values. -/
theorem fbCommitted_agrees {q : FbRequest} (hoob : q.oob = false) : fbCommitted m q = fbCommitted s q := by
  rw [fbCommitted_plain hoob (by rw [h.alone', races_none]), fbCommitted_plain hoob (by rw [h.alone, races_none]), h.fb]

/-- A plotted pixel does the same from both, in the display area down to the framebuffer. -/
theorem plotPixel_sameResult (op : BitVec 3) (b : Built) (x y : Coord) (px : Pixel) :
    (s.plotPixel op b x y px).sameResult (m.plotPixel op b x y px)
      ∧ (inDisplay x y → (m.plotPixel op b x y px).fb = (s.plotPixel op b x y px).fb) := by
  obtain ⟨-, -, -, hrdata, hstatus⟩ := h.registers
  have hregisters : (s.plotPixel op b x y px).sameRegisters (m.plotPixel op b x y px) := by
    simp [State.sameRegisters, hrdata, hstatus]
  cases hready : s.inputs.fbReady with
  | true =>
    obtain ⟨hphase, hwrites, hfb, hfaults⟩ := plotPixel_ready s op b x y px hready
    obtain ⟨hphase', hwrites', hfb', hfaults'⟩ := plotPixel_ready m op b x y px (h.fbReady.trans hready)
    refine ⟨⟨hregisters, hphase'.trans hphase.symm, ?_, ?_⟩, fun hin => ?_⟩
    · rw [hwrites, hwrites', h.writes]
    · rw [hfaults, hfaults', h.faults, h.alone, h.alone']
    · rw [hfb, hfb', fbCommitted_agrees h (outOfBounds_eq_false.mpr hin)]
  | false =>
    obtain ⟨hphase, hwrites, hfb, hfaults⟩ := plotPixel_waiting s op b x y px hready
    obtain ⟨hphase', hwrites', hfb', hfaults'⟩ := plotPixel_waiting m op b x y px (h.fbReady.trans hready)
    refine ⟨⟨hregisters, hphase'.trans hphase.symm, ?_, ?_⟩, fun _ => ?_⟩
    · rw [hwrites, hwrites', h.writes]
    · rw [hfaults, hfaults', h.faults]
    · rw [hfb, hfb', h.fb]

/-- The error response does the same from both. -/
theorem reject_sameResult (e : ErrorCode) (op : BitVec 3) :
    (s.reject e op).sameResult (m.reject e op) ∧ (m.reject e op).fb = (s.reject e op).fb := by
  obtain ⟨hbrush, hbidx, hpix, hrdata, hstatus⟩ := h.registers
  simp [State.sameResult, State.sameRegisters, hbrush, hbidx, hpix, hrdata, hstatus, h.fb, h.writes, h.faults]

/-- A command does the same from both. -/
theorem exec_sameResult {i : Instr} {v v' : State} (hv : exec i s = .next v) (hv' : exec i m = .next v') :
    v.sameResult v' ∧ (plotsInDisplay i → v'.fb = v.fb) := by
  obtain ⟨hbrush, hbidx, hpix, hrdata, hstatus⟩ := h.registers
  cases i with
  | plot x y r g b | plots x y r g b =>
    cases hv
    cases hv'
    exact plotPixel_sameResult h ..
  | build r g b | romrd lvl =>
    cases hv
    cases hv'
    simp [State.sameResult, State.sameRegisters, hbrush, hbidx, hpix, hrdata, hstatus, h.fb, h.writes, h.faults]
  | sample x y =>
    rw [exec_sample] at hv hv'
    rw [hstatus, hbrush] at hv'
    cases hb : s.status.bvalid with
    | true =>
      rw [hb] at hv hv'
      cases hv
      cases hv'
      simp [State.sameResult, State.sameRegisters, hbrush, hbidx, hrdata, hstatus, h.fb, h.writes, h.faults]
    | false =>
      rw [hb] at hv hv'
      cases hv
      cases hv'
      exact (reject_sameResult h _ _).imp_right fun hfb _ => hfb

/-- And so does every command word. -/
theorem complete_sameResult {w : CommandWord} {v v' : State} (hv : s.complete w = .next v)
    (hv' : m.complete w = .next v') : v.sameResult v' ∧ (wordInDisplay w → v'.fb = v.fb) := by
  cases hd : decode w with
  | command i =>
    rw [complete_of_decode_command hd] at hv hv'
    rw [wordInDisplay_iff hd]
    exact exec_sameResult h hv hv'
  | illegalOp =>
    rw [complete_of_decode_illegalOp _ hd] at hv hv'
    cases hv
    cases hv'
    exact (reject_sameResult h _ _).imp_right fun hfb _ => hfb
  | rsvNonzero =>
    rw [complete_of_decode_rsvNonzero _ hd] at hv hv'
    cases hv
    cases hv'
    exact (reject_sameResult h _ _).imp_right fun hfb _ => hfb

end Agrees

/-! ## Through `EXEC` -/

theorem observeOther_of_none {s : State} (h : s.inputs.other = none) : s.observeOther = s := by
  rw [State.observeOther, h]

/-- The state at the same step with its latency still running. -/
def State.slowed (s : State) : State :=
  { s with inputs := { s.inputs with latencyOver := false } }

/-- The latency is no duty of the host's. -/
theorem slowed_protocolBroken (s : State) : s.slowed.protocolBroken = s.protocolBroken := rfl

/-- The state in `EXEC` after a slowed block has accepted a word. -/
def State.executing (s : State) (w : CommandWord) : State :=
  ({ s.slowed with unsettled := false, phase := .exec w } : State).advance true

/-- A ready block whose latency still runs takes the word into `EXEC`. -/
theorem step_slowed {s : State} {w : CommandWord} (h : s.accepts w) (hother : s.inputs.other = none) :
    step s.slowed = .next (s.executing w) := by
  have hword : s.acceptedWord = some w := by
    rw [← observeOther_of_none hother]
    exact acceptedWord_of_accepts h
  have hkept : s.slowed.protocolBroken = false := (slowed_protocolBroken s).trans (protocolBroken_of_accepts h)
  obtain ⟨hready, -⟩ := h
  obtain ⟨hidle, hrun, hrst⟩ := (cmdReady_iff s).mp hready
  rw [step_of_kept hkept, observeOther_of_none (s := s.slowed) hother]
  exact blockStep_accepts (u := s.slowed) hrst hrun hidle hword rfl

section Executing

variable {s : State} {w : CommandWord} {next : StepInput} {rest : List StepInput} (hscript : s.script = next :: rest)
include hscript

theorem executing_inputs : (s.executing w).inputs = next := by
  simp [State.executing, State.slowed, hscript]

/-- In the next step, its latency over, the word in `EXEC` completes. -/
theorem step_executing (h : s.accepts w) (hrst : next.rstN = true) (hover : next.latencyOver = true)
    (hother : next.other = none) : step (s.executing w) = finish false ((s.executing w).complete w) := by
  obtain ⟨hready, -⟩ := h
  obtain ⟨-, hrun, -⟩ := (cmdReady_iff s).mp hready
  have hinputs : (s.executing w).inputs = next := executing_inputs hscript
  have hoffered : (s.executing w).offered = none := by simp [State.executing]
  have hkept : (s.executing w).protocolBroken = false := by simp [State.protocolBroken, hinputs, hrst, hoffered]
  rw [step_of_kept hkept, observeOther_of_none (by rw [hinputs, hother])]
  exact blockStep_completes (u := s.executing w) (by rw [hinputs, hrst]) hrun rfl (by rw [hinputs, hover])

/-- The word in `EXEC` finds what it found when it was accepted. -/
theorem agrees_executing (hother : s.inputs.other = none) (hready : next.fbReady = s.inputs.fbReady)
    (hother' : next.other = none) : s.Agrees (s.executing w) where
  registers := ⟨rfl, rfl, rfl, rfl, rfl⟩
  fb := rfl
  writes := rfl
  faults := rfl
  fbReady := by rw [executing_inputs hscript, hready]
  alone := hother
  alone' := by rw [executing_inputs hscript, hother']

end Executing

/-- Settles O52: the word completes from `EXEC` as it would have at once (`complete_sameResult`), because the states
agree (`agrees_executing`); while the latency runs the block stays (`blockStep_computes`). -/
theorem execPhaseRefinesTheTransaction : Obligations.ExecPhaseRefinesTheTransaction := by
  refine ⟨fun s w next rest h hother hscript hrst hover hready hother' => ?_, fun s w hexec hrun hrst hover => ?_⟩
  · obtain ⟨v, hv⟩ := complete_next s w
    obtain ⟨v', hv'⟩ := complete_next (s.executing w) w
    obtain ⟨⟨hregisters, hphase, hwrites, hfaults⟩, hfb⟩ :=
      complete_sameResult (agrees_executing hscript hother hready hother') hv hv'
    have hatOnce : step s = .next (v.advance true) := by
      rw [step_of_accepts h, observeOther_of_none hother, hv, finish_next]
    have hlater : step (s.executing w) = .next (v'.advance false) := by
      rw [step_executing hscript h hrst hover hother', hv', finish_next]
    exact ⟨_, _, _, hatOnce, step_slowed h hother, rfl, rfl, ⟨rfl, rfl, rfl, rfl, rfl⟩, rfl, rfl, rfl, hlater,
      hregisters, hphase, hwrites, hfaults, hfb⟩
  · have hstep : step s = .next (s.observe.advance false) :=
      blockStep_computes (by simpa using hrst) (by simpa using hrun) (w := w) (by simpa using hexec)
        (by simpa using hover)
    exact ⟨cmdReady_of_busy (by simp [hexec]), by simp [State.fbValid, hexec], _, hstep, by simpa using hexec,
      sameRegisters_observe_advance .., by simp, by simp⟩

end Sys2Proof.Machine
end
